-- ==== Sys2Proof/Word.lean ====
section
/-! DEFINITION. The value domains of rule R11 that the model writes as Lean types of their own.

`Int` and `Rat` of R11 are Lean's `Int` and `Rat`, both exact (92_eei_decisions.md D2).  `UInt(CLK_W)` is `Ticks`:
its width is a parameter of the configuration, and R11 itself calls its members naturals. -/

namespace Sys2Proof

/-- The command word on port CMD, `UInt(8)` (rules R28 and R46). -/
abbrev CommandWord := BitVec 8

/-- `Bit` of rule R11: `false` is 0 and `true` is 1. -/
abbrev Bit := Bool

/-- `UInt(CLK_W)` of rule R11: a clock value or a timestamp, a natural below `2 ^ CLK_W`
(log entry 3 says how the bound is kept). -/
abbrev Ticks := Nat

end Sys2Proof
end

