-- ==== Sys2Proof/Syntax.lean ====
section
/-! DEFINITION. The commands of the block: the seven operations of rule R47, the input ports a command comes with
(rules R28 to R31 and R46), and the assembler spellings of rule R56. -/

namespace Sys2Proof

/-- The direction operand of SETDIR, the closed enumeration of rule R48.  The out-of-enum code DSEL = 11 names none. -/
inductive Direction where
  | stop
  | forward
  | backward
deriving DecidableEq, Repr

/-- The seven operations of rule R47, one constructor for each row of the opcode table.  Numeric operands are no part
of a command word (R49): an operation reads them from the ports. -/
inductive Instr where
  /-- UPDATE, one step of the slew-rate loop (R63). -/
  | update
  /-- SETSLEW, set the slew rate (R81 and R82). -/
  | setslew
  /-- CLRSLEW, leave closed-loop tracking (R83). -/
  | clrslew
  /-- SETDIR, drive the direction pins (R60). -/
  | setdir (dir : Direction)
  /-- STOP, hard stop (R61). -/
  | stop
  /-- GETSPEED, read the last measured speed (R85). -/
  | getspeed
  /-- INIT, put the outputs in their default state (R84). -/
  | init
deriving DecidableEq, Repr

/-- The five input ports as the host presents them for one command (rules R28 to R31).  `msNow` and `usNow` are the
raw values the host drives; the block sees their low CLK_W bits (`State.msNow`, `State.usNow`; log entry 3). -/
structure Ports where
  /-- `CMD : UInt(8)`, the command word (R28). -/
  cmd : CommandWord
  /-- `MS_NOW : UInt(CLK_W)`, the host's millisecond clock (R29). -/
  msNow : Ticks
  /-- `US_NOW : UInt(CLK_W)`, the host's microsecond clock (R29). -/
  usNow : Ticks
  /-- `POS : Int`, the bearing in integer degrees, any integer (R30). -/
  pos : Int
  /-- `RATE : Rat`, the operand of SETSLEW (R31). -/
  rate : Rat
deriving DecidableEq, Repr

/-- The names of the input ports, for the sampling table of rule R44. -/
inductive PortName where
  | cmd
  | msNow
  | usNow
  | pos
  | rate
deriving DecidableEq, Repr

/-- A command as the assembler of rule R56 spells it: the mnemonic and its named operands.  `none` is an operand left
out, which R56 allows for an operand the command does not read. -/
inductive Spelling where
  | update (ms us : Option Ticks) (pos : Option Int)
  | setslew (rate : Rat) (ms us : Option Ticks)
  | clrslew
  | setdir (dir : Direction)
  | stop
  | getspeed
  | init
deriving DecidableEq, Repr

/-- The operation a spelling names (rules R56 and R58). -/
def Spelling.instr : Spelling → Instr
  | .update _ _ _ => .update
  | .setslew _ _ _ => .setslew
  | .clrslew => .clrslew
  | .setdir d => .setdir d
  | .stop => .stop
  | .getspeed => .getspeed
  | .init => .init

/-- The mnemonic of an operation (rule R47). -/
def Instr.mnemonic : Instr → String
  | .update => "UPDATE"
  | .setslew => "SETSLEW"
  | .clrslew => "CLRSLEW"
  | .setdir _ => "SETDIR"
  | .stop => "STOP"
  | .getspeed => "GETSPEED"
  | .init => "INIT"

/-- The spelling of a direction operand (rule R56). -/
def Direction.text : Direction → String
  | .stop => "stop"
  | .forward => "fwd"
  | .backward => "bwd"

/-- A rational written as a fraction, or as an integer where it is one: one of the forms R56 allows (log entry 10). -/
def ratText (q : Rat) : String :=
  if q.den = 1 then toString q.num else toString q.num ++ "/" ++ toString q.den

/-- One named operand of a spelling, or nothing where it is left out. -/
def operandText (name : String) : Option String → List String
  | none => []
  | some v => [name ++ "=" ++ v]

/-- The text of a spelling after its mnemonic, operand by operand (rule R56). -/
def Spelling.operands : Spelling → List String
  | .update ms us pos =>
      operandText "ms" (ms.map toString) ++ operandText "us" (us.map toString) ++ operandText "pos" (pos.map toString)
  | .setslew rate ms us =>
      operandText "rate" (some (ratText rate)) ++ operandText "ms" (ms.map toString) ++ operandText "us" (us.map toString)
  | .setdir d => [d.text]
  | .clrslew => []
  | .stop => []
  | .getspeed => []
  | .init => []

/-- The text of a spelling: the mnemonic followed by its named operands (rule R56). -/
def Spelling.text (sp : Spelling) : String :=
  match sp.operands with
  | [] => sp.instr.mnemonic
  | ops => sp.instr.mnemonic ++ " " ++ String.intercalate ", " ops

end Sys2Proof
end

