-- ==== Sys2Proof/Decode.lean ====
section
/-! DEFINITION. The command-word decoder of 30_encoding.md, total on all 256 words (rule R53), and the encoder.

Decoding reads the four fields of rule R46 and nothing else: not the state, not another port (rules R53 and R55). -/

namespace Sys2Proof

/-- Why a command word is illegal: the four classes (a) to (d) of rule R51.  A word of several classes is given the
first that `decode` meets (log entry 9; safe: every class is refused alike). -/
inductive IllegalWord where
  /-- (c) a reserved bit is set: RSV0 = 1 or RSV1 other than 00. -/
  | reservedBits
  /-- (a) OP = 111. -/
  | noOperation
  /-- (b) SETDIR with DSEL = 11. -/
  | noDirection
  /-- (d) DSEL other than 00 with an OP other than 011. -/
  | strayDirection
deriving DecidableEq, Repr

/-- Field OP, `CMD[2:0]` (rule R46). -/
def opField (w : CommandWord) : BitVec 3 := w.extractLsb' 0 3

/-- Field RSV0, `CMD[3]` (rule R46). -/
def rsv0Field (w : CommandWord) : BitVec 1 := w.extractLsb' 3 1

/-- Field DSEL, `CMD[5:4]` (rule R46). -/
def dselField (w : CommandWord) : BitVec 2 := w.extractLsb' 4 2

/-- Field RSV1, `CMD[7:6]` (rule R46). -/
def rsv1Field (w : CommandWord) : BitVec 2 := w.extractLsb' 6 2

/-- The direction that a DSEL code names (rule R48). -/
def decodeDirection (dsel : BitVec 2) : Option Direction :=
  if dsel = 0b00#2 then some .stop
  else if dsel = 0b01#2 then some .forward
  else if dsel = 0b10#2 then some .backward
  else none

/-- An operation that takes no direction: DSEL must be 00 (rules R46 and R51(d)). -/
def withoutDirection (dsel : BitVec 2) (i : Instr) : Except IllegalWord Instr :=
  if dsel = 0b00#2 then .ok i else .error .strayDirection

/-- SETDIR takes its direction from DSEL (rules R48 and R51(b)). -/
def decodeSetdir (dsel : BitVec 2) : Except IllegalWord Instr :=
  match decodeDirection dsel with
  | some d => .ok (.setdir d)
  | none => .error .noDirection

/-- The operation that OP and DSEL select (rules R47 and R50), with the reserved bits known to be 0. -/
def decodeOp (op : BitVec 3) (dsel : BitVec 2) : Except IllegalWord Instr :=
  if op = 0b000#3 then withoutDirection dsel .update
  else if op = 0b001#3 then withoutDirection dsel .setslew
  else if op = 0b010#3 then withoutDirection dsel .clrslew
  else if op = 0b011#3 then decodeSetdir dsel
  else if op = 0b100#3 then withoutDirection dsel .stop
  else if op = 0b101#3 then withoutDirection dsel .getspeed
  else if op = 0b110#3 then withoutDirection dsel .init
  else .error .noOperation

/-- The decoder: one of the nine legal commands of rule R50, or the reason the word is illegal (rules R51 and R53). -/
def decode (w : CommandWord) : Except IllegalWord Instr :=
  if rsv0Field w = 0b0#1 ∧ rsv1Field w = 0b00#2 then decodeOp (opField w) (dselField w) else .error .reservedBits

/-- The OP code of an operation (rule R47). -/
def Instr.opcode : Instr → BitVec 3
  | .update => 0b000#3
  | .setslew => 0b001#3
  | .clrslew => 0b010#3
  | .setdir _ => 0b011#3
  | .stop => 0b100#3
  | .getspeed => 0b101#3
  | .init => 0b110#3

/-- The DSEL code of a direction (rule R48). -/
def Direction.code : Direction → BitVec 2
  | .stop => 0b00#2
  | .forward => 0b01#2
  | .backward => 0b10#2

/-- The DSEL field of an operation: its direction's code for SETDIR, and 00 otherwise (rule R46). -/
def Instr.dsel : Instr → BitVec 2
  | .setdir d => d.code
  | .update => 0b00#2
  | .setslew => 0b00#2
  | .clrslew => 0b00#2
  | .stop => 0b00#2
  | .getspeed => 0b00#2
  | .init => 0b00#2

/-- The command word of an operation, the fields RSV1, DSEL, RSV0 and OP side by side (rules R46 and R50). -/
def encode (i : Instr) : CommandWord :=
  ((0b00#2 ++ i.dsel) ++ 0b0#1) ++ i.opcode

/-- The ports that a spelling stands for (rule R56): the command word of its operation and the operands it names.  An
operand left out is a don't-care: the port keeps what the lines show, whatever that is. -/
def Spelling.ports (lines : Ports) : Spelling → Ports
  | .update ms us pos =>
      { lines with
        cmd := encode .update, msNow := ms.getD lines.msNow, usNow := us.getD lines.usNow, pos := pos.getD lines.pos }
  | .setslew rate ms us =>
      { lines with
        cmd := encode .setslew, rate := rate, msNow := ms.getD lines.msNow, usNow := us.getD lines.usNow }
  | .clrslew => { lines with cmd := encode .clrslew }
  | .setdir d => { lines with cmd := encode (.setdir d) }
  | .stop => { lines with cmd := encode .stop }
  | .getspeed => { lines with cmd := encode .getspeed }
  | .init => { lines with cmd := encode .init }

/-- The command word held by the low `nbits` bits of `w`, none where they do not fit in one (rule R55: every command is
exactly one 8-bit word). -/
def tableCommandWord (nbits w : Nat) : Option CommandWord :=
  if w % 2 ^ nbits < 2 ^ 8 then some (BitVec.ofNat 8 (w % 2 ^ nbits)) else none

/-- The instruction the decoder reads from the bits of an opcode-table row. -/
def decodeTableWord (nbits w : Nat) : Option Instr :=
  match tableCommandWord nbits w with
  | none => none
  | some c =>
    match decode c with
    | .ok i => some i
    | .error _ => none

end Sys2Proof
end

