-- ==== Sys2Proof/Config.lean ====
section
/-! DEFINITION. The implementation parameters of rules R5 to R9: fixed for one instance of the block, never written.

The spec leaves KP, DEG_MIN and DEG_MAX open, and CLK_W, SAMPLE_MS and PERIOD_US open with a default.  The model
carries them as data, so that a statement over every state is a statement over every configuration (log entry 1). -/

namespace Sys2Proof

/-- The configuration of one instance of the block (rules R5 to R9 and R32). -/
structure Config where
  /-- `CLK_W`, the width in bits of both clocks and of LTIME and CSTART (R5). -/
  clkW : Nat
  /-- `SAMPLE_MS`, the sampling interval in milliseconds (R6). -/
  sampleMs : Nat
  /-- `PERIOD_US`, the PWM period in microseconds (R7). -/
  periodUs : Nat
  /-- `KP`, the proportional gain: any rational, zero and negatives included (R8). -/
  kp : Rat
  /-- `DEG_MIN`, the lower end of the calibrated degree range (R9). -/
  degMin : Int
  /-- `DEG_MAX`, the upper end of the calibrated degree range (R9). -/
  degMax : Int
deriving DecidableEq, Repr

/-- `RANGE = DEG_MAX - DEG_MIN`, the full degree range (rules R9 and R68). -/
def Config.range (c : Config) : Int := c.degMax - c.degMin

/-- `2 ^ CLK_W`, the number of values of a clock (rules R5 and R11). -/
def Config.clockSpan (c : Config) : Nat := 2 ^ c.clkW

/-- The default test configuration of 95_test_vectors.md: the defaults of R5 to R7, KP = 1/20 and the range 0 to 360.
DESIGN CHOICE (log entry 1; unsafe): the spec gives no production value of KP, DEG_MIN and DEG_MAX.
PRESUMED (log entry 2; unsafe): the spec takes the width 32 from general knowledge. -/
def Config.default : Config :=
  { clkW := 32
    sampleMs := 200
    periodUs := 20000
    kp := { num := 1, den := 20, den_nz := by decide, reduced := by decide }
    degMin := 0
    degMax := 360 }

end Sys2Proof
end

