-- ==== Sys2Proof/WellFormed.lean ====
section
/-! DEFINITION. The checks the spec asks of a configuration (rule R10) and of the values on the clock ports (rule R29).

No term of `Instr` is ill-formed: its one operand, a direction, is the closed enumeration of rule R48, and the word
that would name a fourth direction is refused by the decoder (rule R51(b)). -/

namespace Sys2Proof

/-- A configuration is well formed (rule R10).  That KP is a rational number is its type. -/
abbrev Config.WellFormed (c : Config) : Prop :=
  1 ≤ c.clkW ∧ 1 ≤ c.sampleMs ∧ c.sampleMs < c.clockSpan ∧ 1 ≤ c.periodUs ∧ c.periodUs < c.clockSpan ∧ c.degMin < c.degMax

/-- The clock values on the ports lie in their domain `UInt(CLK_W)` (rules R11 and R29). -/
abbrev Ports.InDomain (c : Config) (p : Ports) : Prop :=
  p.msNow < c.clockSpan ∧ p.usNow < c.clockSpan

end Sys2Proof
end

