-- ==== Sys2Proof/Machine/State.lean ====
section
/-! DEFINITION. The state of the block: the eleven registers of rules R15 to R25 and, beside them, the model's own
fields that stand for what the host does (the configuration it built the block with, the ports, the commands it has
issued, the value it was last returned, the refusal mark). -/

namespace Sys2Proof.Machine

/-- The block raises no fault: no legal command raises an exception, returns an error or leaves a faulted state (rule
R87), and there is no trap mechanism (rule R91).  So the type has no constructor (log entry 8; safe). -/
inductive Fault where
deriving DecidableEq, Repr

/-- Why a step gives a command no meaning. -/
inductive Refusal where
  /-- An operation that has no meaning yet.  Raised by no arm of `exec`: every operation has its meaning. -/
  | notModelled (mnemonic : String)
  /-- The command word is illegal (rules R51 and R88).  Raised by `step`, from the decoder; safe: no next state. -/
  | illegalWord (why : IllegalWord)
  /-- The configuration breaks rule R10, so the block has no runs (rule R89).  Raised by `step`; safe: no next state. -/
  | malformedConfig
deriving DecidableEq, Repr

/-- The eleven registers of rule R15: the eight of the source's ActuatorState and the three output registers. -/
structure Regs where
  /-- `ACTIVE : Bit`, the closed-loop enable flag: 1 is Slewing, 0 is Idle (R16, R33). -/
  active : Bit
  /-- `DES : Rat`, the desired speed in degrees per second (R17). -/
  des : Rat
  /-- `DUTY : Rat`, the duty cycle, a fraction of the PWM period (R18). -/
  duty : Rat
  /-- `LPOS : Int`, the last sampled position in degrees (R19). -/
  lpos : Int
  /-- `LTIME : UInt(CLK_W)`, the timestamp of the last measurement in milliseconds (R20). -/
  ltime : Ticks
  /-- `BASE : Bit`, the baseline-valid flag (R21). -/
  base : Bit
  /-- `CSTART : UInt(CLK_W)`, the PWM cycle start in microseconds (R22). -/
  cstart : Ticks
  /-- `SPD : Rat`, the last measured speed magnitude in degrees per second (R23). -/
  spd : Rat
  /-- `EN : Bit`, the motor enable output (R24). -/
  en : Bit
  /-- `PA : Bit`, the first direction output (R25). -/
  pa : Bit
  /-- `PB : Bit`, the second direction output (R25). -/
  pb : Bit
deriving DecidableEq, Repr

/-- The reset value of every register (rule R35; ACTIVE and DUTY from the source, the rest by the spec's decision D18). -/
def Regs.reset : Regs :=
  { active := false
    des := 0
    duty := 1
    lpos := 0
    ltime := 0
    base := false
    cstart := 0
    spd := 0
    en := true
    pa := false
    pb := false }

/-- The ports before the host has presented anything: all zero.  DESIGN CHOICE (log entry 5): the ports are no state of
the block (R15), and no command runs before `step` has set them. -/
def quietPorts : Ports := { cmd := 0, msNow := 0, usNow := 0, pos := 0, rate := 0 }

/-- The machine: one instance of the block and its host. -/
structure State where
  /-- The configuration this instance was built with, constant (R32 and R100; log entry 1). -/
  cfg : Config
  /-- The registers (R15). -/
  regs : Regs
  /-- The input ports as presented for the command being performed (R28 to R31; log entry 4). -/
  ports : Ports
  /-- The commands the host has issued that have not been performed, oldest first (R42, D24; log entry 4). -/
  pending : List Ports
  /-- The value the last performed command returned, if it returned one (R85; log entry 6). -/
  result : Option Rat
  /-- The refusal mark of rule R88, which no command clears (log entry 7). -/
  refusalMark : Bit
deriving DecidableEq, Repr

/-- The reset state under a configuration: every register at its value of R35, and no command issued (R100, R101). -/
def State.resetUnder (c : Config) : State :=
  { cfg := c
    regs := Regs.reset
    ports := quietPorts
    pending := []
    result := none
    refusalMark := false }

/-- The reset state of a well-formed configuration; any other configuration has none (rules R10 and R89). -/
def State.resetWith (c : Config) : Option State :=
  if c.WellFormed then some (State.resetUnder c) else none

/-- The machine right after reset, with the default test configuration (log entry 1). -/
def State.reset : State := State.resetUnder Config.default

end Sys2Proof.Machine
end

