-- ==== Sys2Proof/Machine/Ops.lean ====
section
/-! DEFINITION. The shared operations: the exact arithmetic of rule R14, the register writes that the commands are made
of, the outputs the host sees, and taking the next command from the host.

The block has no memory (rule R37) and takes no exception (rules R87 and R91), so there is no operation for either. -/

namespace Sys2Proof.Machine

/-! ## Arithmetic helpers (rule R14) -/

/-- `a ⊖ b` on `UInt(width)`: `(a - b) mod 2 ^ width`, taken in the integers. -/
def clockSub (width : Nat) (a b : Ticks) : Ticks :=
  (((a : Int) - (b : Int)) % ((2 ^ width : Nat) : Int)).toNat

/-- `a ⊕ b` on `UInt(width)`: `(a + b) mod 2 ^ width`. -/
def clockAdd (width : Nat) (a b : Ticks) : Ticks := (a + b) % 2 ^ width

/-- The value that a port of `width` wires shows when the host drives `v`: the low `width` bits (log entry 3). -/
def clockPort (width : Nat) (v : Ticks) : Ticks := v % 2 ^ width

/-- `clamp01(x) = min(1, max(0, x))`. -/
def clamp01 (x : Rat) : Rat := min 1 (max 0 x)

/-! ## Register writes -/

/-- PA of a direction: 1 for forward only (rule R48). -/
def Direction.pa : Direction → Bit
  | .stop => false
  | .forward => true
  | .backward => false

/-- PB of a direction: 1 for backward only (rule R48). -/
def Direction.pb : Direction → Bit
  | .stop => false
  | .forward => false
  | .backward => true

/-- Drive the direction pins to a direction's pattern (rules R25 and R48). -/
def Regs.driveDirection (d : Direction) (r : Regs) : Regs := { r with pa := Direction.pa d, pb := Direction.pb d }

/-- Drive the enable output (rule R24). -/
def Regs.driveEnable (b : Bit) (r : Regs) : Regs := { r with en := b }

/-- Leave closed-loop tracking and return to full drive: the writes of rule R83. -/
def Regs.enterIdle (r : Regs) : Regs := { r with active := false, des := 0, duty := 1, en := true }

/-- Enable closed-loop tracking at a rate: the writes of rule R81. -/
def Regs.enterSlewing (rate : Rat) (msNow usNow : Ticks) (r : Regs) : Regs :=
  { r with des := rate, active := true, base := false, ltime := msNow, cstart := usNow }

/-- Take the baseline sample: the writes of rule R65. -/
def Regs.takeBaseline (pos : Int) (msNow : Ticks) (r : Regs) : Regs :=
  { r with lpos := pos, ltime := msNow, base := true }

/-- End a measurement of the speed `spd` that sets the duty to `duty`: the writes of rules R70, R72 and R73. -/
def Regs.recordMeasurement (spd duty : Rat) (pos : Int) (msNow : Ticks) (r : Regs) : Regs :=
  { r with spd := spd, duty := duty, lpos := pos, ltime := msNow }

/-- Set the PWM cycle start and the enable output: the writes of rules R75 and R76. -/
def Regs.recordPwm (cstart : Ticks) (en : Bit) (r : Regs) : Regs := { r with cstart := cstart, en := en }

/-- Replace the registers. -/
def State.withRegs (r : Regs) (s : State) : State := { s with regs := r }

/-- Return a value to the host (rule R85). -/
def State.withResult (q : Rat) (s : State) : State := { s with result := some q }

/-! ## What the host sees (rules R26 and R27) -/

/-- The read-only output port SPEED_OUT: SPD at all times (rule R26). -/
def State.speedOut (s : State) : Rat := s.regs.spd

/-- The outputs the host can observe (rule R27). -/
structure Outputs where
  en : Bit
  pa : Bit
  pb : Bit
  speedOut : Rat
deriving DecidableEq, Repr

/-- The outputs in a state (rules R24 to R27). -/
def State.outputs (s : State) : Outputs :=
  { en := s.regs.en, pa := s.regs.pa, pb := s.regs.pb, speedOut := s.speedOut }

/-! ## The host's commands (rules R40 to R42) -/

/-- The host issues a command: it goes behind those already issued (rule R42). -/
def State.issue (p : Ports) (s : State) : State := { s with pending := s.pending ++ [p] }

/-- The block takes a command: its ports are presented, and the commands behind it stay issued.  Whatever an earlier
command returned is gone: a returned value belongs to its own command (log entry 6). -/
def State.present (p : Ports) (rest : List Ports) (s : State) : State :=
  { s with ports := p, pending := rest, result := none }

/-- What the block finds when it looks for its next command. -/
inductive Fetched where
  /-- The host has issued none: the block waits (rules R98 and R101; log entry 5). -/
  | waiting
  /-- There is nothing to run, for this reason (rules R88 and R89). -/
  | refused (why : Refusal)
  /-- This operation, on the state in which its ports are presented. -/
  | run (i : Instr) (s : State)
deriving DecidableEq, Repr

/-- Take the next command: refuse an ill-formed configuration (rule R89), decode the command word on port CMD (rule
R53), refuse an illegal one (rule R88). -/
def State.fetch (s : State) : Fetched :=
  if s.cfg.WellFormed then
    match s.pending with
    | [] => .waiting
    | p :: rest =>
      match decode p.cmd with
      | .ok i => .run i (s.present p rest)
      | .error why => .refused (.illegalWord why)
  else .refused .malformedConfig

/-- The host drops the command it has just been refused, and the refusal mark is set; no register changes (rule R88). -/
def State.dropRefused (s : State) : State := { s with pending := s.pending.tail, refusalMark := true }

/-- Put a command word where the next command is taken from: in the oldest issued command, or as a new one with quiet
operand ports where none is issued. -/
def State.placeWord (w : CommandWord) (s : State) : State :=
  match s.pending with
  | [] => { s with pending := [{ quietPorts with cmd := w }] }
  | p :: rest => { s with pending := { p with cmd := w } :: rest }

end Sys2Proof.Machine
end

