-- ==== Sys2Proof/Machine/Flags.lean ====
section
/-! DEFINITION. The two flags ACTIVE and BASE (rule R36) and what UPDATE decides from them: the operating mode, the
kind of sampling event, and the level of the enable output. -/

namespace Sys2Proof.Machine

/-- The two operating states (rule R33). -/
inductive Mode where
  | idle
  | slewing
deriving DecidableEq, Repr

/-- The operating state that ACTIVE names (rule R33). -/
def Regs.mode (r : Regs) : Mode := if r.active then .slewing else .idle

/-- What the Speed Estimator does in one UPDATE. -/
inductive Sampling where
  /-- No sampling event: Idle (R64), or the gate is closed (R66). -/
  | skip
  /-- The baseline sample (R65). -/
  | baseline
  /-- A measurement over `dt` milliseconds (R66 to R73). -/
  | measurement (dt : Ticks)
deriving DecidableEq, Repr

/-- The sampling gate (rule R66): whether `dt` milliseconds are enough for a measurement. -/
def gateOpen (c : Config) (dt : Ticks) : Bool := decide (c.sampleMs ≤ dt)

/-- The sampling event of an UPDATE at `msNow` (rules R64 to R66). -/
def Regs.sampling (c : Config) (msNow : Ticks) (r : Regs) : Sampling :=
  match r.mode, r.base with
  | .idle, _ => .skip
  | .slewing, false => .baseline
  | .slewing, true =>
    if gateOpen c (clockSub c.clkW msNow r.ltime) then .measurement (clockSub c.clkW msNow r.ltime) else .skip

/-- The level of EN at in-cycle time `e` (rule R76).  The on-time `duty * PERIOD_US` is an exact rational (D17). -/
def enableLevel (c : Config) (duty : Rat) (e : Ticks) : Bit :=
  if duty = 0 then false
  else if 1 ≤ duty then true
  else decide ((e : Rat) < duty * (c.periodUs : Rat))

end Sys2Proof.Machine
end

