-- ==== Sys2Proof/Machine/Operands.lean ====
section
/-! DEFINITION. The operands: what each port shows (rules R29 to R31 and R49), and which ports a command samples (the
table of rule R44). -/

namespace Sys2Proof.Machine

/-- The value on port MS_NOW, in `UInt(CLK_W)` (rule R29; log entry 3). -/
def State.msNow (s : State) : Ticks := clockPort s.cfg.clkW s.ports.msNow

/-- The value on port US_NOW, in `UInt(CLK_W)` (rule R29; log entry 3). -/
def State.usNow (s : State) : Ticks := clockPort s.cfg.clkW s.ports.usNow

/-- The value on port POS (rule R30). -/
def State.pos (s : State) : Int := s.ports.pos

/-- The value on port RATE (rule R31). -/
def State.rate (s : State) : Rat := s.ports.rate

/-- The sampling event of an UPDATE in this state (rules R64 to R66). -/
def State.sampling (s : State) : Sampling := s.regs.sampling s.cfg s.msNow

/-- Whether POS is read, in UPDATE: at a sampling event only (rules R65 to R67). -/
def posPort : Sampling → List PortName
  | .skip => []
  | .baseline => [.pos]
  | .measurement _ => [.pos]

/-- The ports UPDATE samples (rule R44). -/
def updatePorts (s : State) : List PortName :=
  match s.regs.mode with
  | .idle => [.cmd]
  | .slewing => [.cmd, .msNow, .usNow] ++ posPort s.sampling

/-- The ports SETSLEW samples (rule R44). -/
def setslewPorts (s : State) : List PortName :=
  if 0 < s.rate then [.cmd, .rate, .msNow, .usNow] else [.cmd, .rate]

/-- The ports a command samples in a state: the table of rule R44. -/
def portsRead (i : Instr) (s : State) : List PortName :=
  match i with
  | .update => updatePorts s
  | .setslew => setslewPorts s
  | .clrslew => [.cmd]
  | .setdir _ => [.cmd]
  | .stop => [.cmd]
  | .getspeed => [.cmd]
  | .init => [.cmd]

/-- Two presentations show the same value on one port. -/
def samePort (p q : Ports) : PortName → Prop
  | .cmd => p.cmd = q.cmd
  | .msNow => p.msNow = q.msNow
  | .usNow => p.usNow = q.usNow
  | .pos => p.pos = q.pos
  | .rate => p.rate = q.rate

/-- Two presentations agree on the named ports. -/
def Ports.AgreeOn (names : List PortName) (p q : Ports) : Prop := ∀ n ∈ names, samePort p q n

end Sys2Proof.Machine
end

