-- ==== Sys2Proof/Machine/Direction.lean ====
section
/-! DEFINITION. The Direction Driver and stop (41_direction.md): SETDIR and STOP. -/

namespace Sys2Proof.Machine

/-- SETDIR (rule R60): the direction pins only.  EN and the control loop are not disturbed. -/
def execSetdir (d : Direction) (s : State) : Host.Outcome State Fault Refusal :=
  .next (s.withRegs (s.regs.driveDirection d))

/-- STOP (rules R61 and R62): the pins at the stop pattern and EN low.  ACTIVE stays as it is (D13). -/
def execStop (s : State) : Host.Outcome State Fault Refusal :=
  .next (s.withRegs ((s.regs.driveDirection .stop).driveEnable false))

end Sys2Proof.Machine
end

