-- ==== Sys2Proof/Machine/ModeControl.lean ====
section
/-! DEFINITION. Mode control (43_mode.md): SETSLEW, CLRSLEW, INIT and GETSPEED. -/

namespace Sys2Proof.Machine

/-- The registers after SETSLEW: a positive rate enables tracking (rule R81), any other rate does what CLRSLEW does
(rule R82). -/
def Regs.setslew (rate : Rat) (msNow usNow : Ticks) (r : Regs) : Regs :=
  if 0 < rate then r.enterSlewing rate msNow usNow else r.enterIdle

/-- SETSLEW (rules R81 and R82). -/
def execSetslew (s : State) : Host.Outcome State Fault Refusal :=
  .next (s.withRegs (s.regs.setslew s.rate s.msNow s.usNow))

/-- CLRSLEW (rule R83), complete within the command (90_conflicts.md C3). -/
def execClrslew (s : State) : Host.Outcome State Fault Refusal :=
  .next (s.withRegs s.regs.enterIdle)

/-- INIT (rule R84): the outputs only.  The calibration is configuration, which no command writes (90_conflicts.md C1). -/
def execInit (s : State) : Host.Outcome State Fault Refusal :=
  .next (s.withRegs ((s.regs.driveDirection .stop).driveEnable true))

/-- GETSPEED (rule R85): return SPD, write no register. -/
def execGetspeed (s : State) : Host.Outcome State Fault Refusal :=
  .next (s.withResult s.regs.spd)

end Sys2Proof.Machine
end

