-- ==== Sys2Proof/Machine/Update.lean ====
section
/-! DEFINITION. UPDATE (42_update.md): the Speed Estimator, the Duty Controller and the PWM Generator, in that order
(rule R79). -/

namespace Sys2Proof.Machine

/-! ## Speed Estimator -/

/-- The wrap-around correction (rule R68): strict at half the range, applied once, not iterated (D14). -/
def wrapDelta (range d : Int) : Int :=
  if range < 2 * |d| then (if 0 < d then d - range else d + range) else d

/-- The corrected delta of a measurement at `pos` (rules R67 and R68). -/
def Regs.correctedDelta (c : Config) (pos : Int) (r : Regs) : Int := wrapDelta c.range (pos - r.lpos)

/-- The signed speed of a delta over `dt` milliseconds, in degrees per second, exact (rule R69). -/
def signedSpeed (d : Int) (dt : Ticks) : Rat := ((d : Rat) * 1000) / (dt : Rat)

/-- The speed magnitude that a measurement stores (rule R70). -/
def Regs.measuredSpeed (c : Config) (pos : Int) (dt : Ticks) (r : Regs) : Rat :=
  |signedSpeed (r.correctedDelta c pos) dt|

/-! ## Duty Controller -/

/-- The proportional law (rules R71 and R72): no integral, derivative, deadband or anti-windup term beyond the clamp
(rule R109). -/
def Regs.nextDuty (c : Config) (spd : Rat) (r : Regs) : Rat := clamp01 (r.duty + c.kp * (r.des - spd))

/-- The estimator and the controller of one UPDATE (rules R65 to R73). -/
def Regs.sample (c : Config) (msNow : Ticks) (pos : Int) (r : Regs) : Regs :=
  match r.sampling c msNow with
  | .skip => r
  | .baseline => r.takeBaseline pos msNow
  | .measurement dt =>
    r.recordMeasurement (r.measuredSpeed c pos dt) (r.nextDuty c (r.measuredSpeed c pos dt)) pos msNow

/-! ## PWM Generator -/

/-- The time since the cycle start (rule R74). -/
def Regs.cycleElapsed (c : Config) (usNow : Ticks) (r : Regs) : Ticks := clockSub c.clkW usNow r.cstart

/-- The cycle start after the catch-up by `e div PERIOD_US` whole periods (rule R75). -/
def caughtUpStart (c : Config) (cstart e : Ticks) : Ticks :=
  if c.periodUs ≤ e then clockAdd c.clkW cstart ((e / c.periodUs) * c.periodUs) else cstart

/-- The in-cycle time after the catch-up (rule R75). -/
def caughtUpElapsed (c : Config) (e : Ticks) : Ticks :=
  if c.periodUs ≤ e then e - (e / c.periodUs) * c.periodUs else e

/-- The PWM stage of one UPDATE (rules R74 to R76), on the registers as the Duty Controller left them. -/
def Regs.pwm (c : Config) (usNow : Ticks) (r : Regs) : Regs :=
  r.recordPwm (caughtUpStart c r.cstart (r.cycleElapsed c usNow))
    (enableLevel c r.duty (caughtUpElapsed c (r.cycleElapsed c usNow)))

/-! ## The command -/

/-- The registers after UPDATE: unchanged in Idle (rule R64), and in Slewing the three stages in order (rule R79). -/
def Regs.update (c : Config) (msNow usNow : Ticks) (pos : Int) (r : Regs) : Regs :=
  match r.mode with
  | .idle => r
  | .slewing => (r.sample c msNow pos).pwm c usNow

/-- UPDATE (rule R63). -/
def execUpdate (s : State) : Host.Outcome State Fault Refusal :=
  .next (s.withRegs (s.regs.update s.cfg s.msNow s.usNow s.pos))

end Sys2Proof.Machine
end

