-- ==== Sys2Proof/Machine/Dispatch.lean ====
section
/-! DEFINITION. One arm per operation: the call of its meaning. -/

namespace Sys2Proof.Machine

def exec (i : Instr) (s : State) : Host.Outcome State Fault Refusal :=
  match i with
  | .update => Sys2Proof.Machine.execUpdate s
  | .setslew => Sys2Proof.Machine.execSetslew s
  | .clrslew => Sys2Proof.Machine.execClrslew s
  | .setdir d => Sys2Proof.Machine.execSetdir d s
  | .stop => Sys2Proof.Machine.execStop s
  | .getspeed => Sys2Proof.Machine.execGetspeed s
  | .init => Sys2Proof.Machine.execInit s

end Sys2Proof.Machine
end

