-- ==== Sys2Proof/Machine/Step.lean ====
section
/-! DEFINITION. One step of the machine: the block performs the oldest command the host has issued, whole (rule R40). -/

namespace Sys2Proof.Machine

/-- One step: the next issued command is taken and performed.  With none issued the block holds its state (rules R45,
R98 and R101); an illegal word and an ill-formed configuration are refused (rules R88 and R89). -/
def step (s : State) : Host.Outcome State Fault Refusal :=
  match s.fetch with
  | .waiting => .next s
  | .refused why => .refused why
  | .run i t => exec i t

/-- The state in which the next command to be taken carries the word of an opcode-table row. -/
def State.withFetchWord (s : State) (nbits w : Nat) : State := s.placeWord (BitVec.ofNat 8 (w % 2 ^ nbits))

end Sys2Proof.Machine
end

