-- ==== Sys2Proof/Machine/Session.lean ====
section
/-! DEFINITION. What stands around one instance's step: the host that goes on after a refusal with the refusal mark set
(rule R88), and several instances side by side (rules R41 and R96). -/

namespace Sys2Proof.Machine

/-- The host serves one command: the next state where there is one, and where the step is refused the same registers
with the command dropped and the refusal mark set (rule R88; log entry 7).  There is no fault (rule R87). -/
def State.serve (s : State) : State :=
  match step s with
  | .next t => t
  | .fault f => nomatch f
  | .refused _ => s.dropRefused

/-- The host serves `k` commands in the order it issued them (rule R42). -/
def State.serveMany : Nat → State → State
  | 0, s => s
  | k + 1, s => State.serveMany k s.serve

/-- One instance of several takes a step; the others hold their state (rules R41 and R96).  A number that names no
instance moves nothing.  DESIGN CHOICE (log entry 11; safe): where that instance's step is refused, so is the step of the
whole, with no next state for any instance; the spec says nothing of a joint run.  `serveInstance` goes on instead. -/
def stepInstance (k : Nat) (fleet : List State) : Host.Outcome (List State) Fault Refusal :=
  match fleet[k]? with
  | none => .next fleet
  | some s =>
    match step s with
    | .next t => .next (fleet.set k t)
    | .fault f => .fault f
    | .refused why => .refused why

/-- The host serves one command of one instance of several: a refusal marks that instance alone, and every instance goes
on.  DESIGN CHOICE (log entry 11; unsafe): the spec says nothing of what a refused command of one instance does to a joint
run; this is rule R88 for the instance, as `State.serve` has it, and rule R96 for the others.  A number that names no
instance moves nothing. -/
def serveInstance (k : Nat) (fleet : List State) : List State :=
  match fleet[k]? with
  | none => fleet
  | some s => fleet.set k s.serve

/-- The host serves several instances, one command of the instance with each number of `order` in turn. -/
def serveFleet : (order : List Nat) → List State → List State
  | [], fleet => fleet
  | k :: order, fleet => serveFleet order (serveInstance k fleet)

end Sys2Proof.Machine
end

