-- ==== Sys2Proof/Safety.lean ====
section
/-! DEFINITION. The terms in which claims are made: the invariants of rules R22 and R34, a safe run, the drift-free
schedule of rule R78, and relational readings of rules R68 and R74 to R76 that are written apart from the meanings. -/

namespace Sys2Proof.Safety

open Sys2Proof.Machine

/-! ## Invariants -/

/-- The timestamps lie in `UInt(CLK_W)` (rules R20 and R22). -/
abbrev RegsInDomain (c : Config) (r : Regs) : Prop := r.ltime < c.clockSpan ∧ r.cstart < c.clockSpan

/-- Clauses (a) to (f) of rule R34. -/
abbrev RegsLegal (r : Regs) : Prop :=
  (0 ≤ r.duty ∧ r.duty ≤ 1) ∧ 0 ≤ r.spd ∧ (r.active = true → 0 < r.des) ∧ (r.active = false → r.des = 0) ∧
    (r.active = false → r.duty = 1) ∧ ¬(r.pa = true ∧ r.pb = true)

/-- The invariant of the machine: a well-formed configuration (R10), registers in their domains and legal (R34), and a
returned speed that is a magnitude (R85). -/
abbrev StateInv (s : State) : Prop :=
  s.cfg.WellFormed ∧ RegsInDomain s.cfg s.regs ∧ RegsLegal s.regs ∧ ∀ q ∈ s.result, 0 ≤ q

/-! ## Runs -/

/-- A presentation carries the operation `i`. -/
abbrev Carries (p : Ports) (i : Instr) : Prop := decode p.cmd = .ok i

/-- A presentation carries a legal command word (rule R50). -/
def Legal (p : Ports) : Prop := ∃ i, Carries p i

/-- A presentation carries an operation that neither enters nor leaves Slewing: none of SETSLEW and CLRSLEW (R86). -/
def KeepsLoop (p : Ports) : Prop := ∃ i, Carries p i ∧ i ≠ .setslew ∧ i ≠ .clrslew

/-- A presentation carries an operation that leaves the whole control loop alone: SETDIR, STOP, GETSPEED or INIT. -/
def LeavesLoopAlone (p : Ports) : Prop := ∃ i, Carries p i ∧ i ≠ .setslew ∧ i ≠ .clrslew ∧ i ≠ .update

/-- A presentation carries one of the commands that write EN <- 1 outside the PWM stage: CLRSLEW, SETSLEW with a rate
that is not positive, INIT (rule R34(g)). -/
def RestoresEnable (p : Ports) : Prop :=
  Carries p .clrslew ∨ (Carries p .setslew ∧ p.rate ≤ 0) ∨ Carries p .init

/-- A safe run: no refusal has been recorded (rule R88). -/
def Unrefused (s : State) : Prop := s.refusalMark = false

/-! ## The schedule of rule R78 -/

/-- The microsecond clock values the UPDATE commands of a command sequence present, in order: on the host's unwrapped
timeline, since a port shows the block their low CLK_W bits only. -/
def updateTimes : List Ports → List Nat
  | [] => []
  | p :: ps =>
    match decode p.cmd with
    | .ok .update => p.usNow :: updateTimes ps
    | .ok _ => updateTimes ps
    | .error _ => updateTimes ps

/-- The unwrapped times never go back from `start`, and each is at most `bound` after the one before it. -/
def SpacedBy (bound start : Nat) : List Nat → Prop
  | [] => True
  | u :: us => start ≤ u ∧ u - start ≤ bound ∧ SpacedBy bound u us

/-- The last of the times, `start` where there is none. -/
def lastTime (start : Nat) : List Nat → Nat
  | [] => start
  | u :: us => lastTime u us

/-- CSTART shows the point `start + k * PERIOD_US` of the ideal schedule, which is not after the unwrapped time `now`. -/
abbrev AtPoint (c : Config) (start now k : Nat) (cstart : Ticks) : Prop :=
  cstart = (start + k * c.periodUs) % c.clockSpan ∧ start + k * c.periodUs ≤ now

/-- CSTART stands on the ideal schedule of rule R78(b): it shows `start + k * PERIOD_US`, the largest such value that is
not after the unwrapped time `now`. -/
def OnSchedule (c : Config) (start now : Nat) (cstart : Ticks) : Prop :=
  ∃ k : Nat, AtPoint c start now k cstart ∧ now < start + (k + 1) * c.periodUs

/-! ## Relational readings of UPDATE's steps -/

/-- `e` is the time from `since` to `now` on a clock of the configuration: the one value in `UInt(CLK_W)` that added to
`since` gives `now` (rules R14, R66 and R74). -/
abbrev ElapsedIs (c : Config) (since now e : Nat) : Prop :=
  e < c.clockSpan ∧ (since + e) % c.clockSpan = now % c.clockSpan

/-- `d` is the raw delta `raw` after the wrap-around correction (rule R68). -/
abbrev CorrectedIs (range raw d : Int) : Prop :=
  (2 * |raw| ≤ range ∧ d = raw) ∨ (range < 2 * |raw| ∧ 0 < raw ∧ d = raw - range) ∨
    (range < 2 * |raw| ∧ raw < 0 ∧ d = raw + range)

/-- What the PWM stage at `usNow` leaves in CSTART and EN, given CSTART before it and the duty (rules R74 to R76). -/
def PwmLeaves (c : Config) (usNow cstart : Ticks) (duty : Rat) (cstart' : Ticks) (en' : Bit) : Prop :=
  ∃ e, ElapsedIs c cstart usNow e ∧
    (c.periodUs ≤ e → cstart' = (cstart + e / c.periodUs * c.periodUs) % c.clockSpan) ∧
    (e < c.periodUs → cstart' = cstart) ∧
    (duty = 0 → en' = false) ∧ (1 ≤ duty → en' = true) ∧
    (duty ≠ 0 → duty < 1 → (en' = true ↔ ((e % c.periodUs : Nat) : Rat) < duty * (c.periodUs : Rat)))

end Sys2Proof.Safety
end

