-- ==== Sys2Proof/Certificates/Slice0/Obligations.lean ====
section
/-! DEFINITION. The statements about this model, each a `def Obligations.<Name> : Prop`.

They are read from the numbered rules of spec/.  A docstring names the rules a statement formalises; where it rests on a
choice of the model, it names the log entry. -/

open Sys2Proof Sys2Proof.Machine Sys2Proof.Safety

/-! ## Encoding -/

/-- Decode and encode agree on every word and every operation (rules R46 to R53). -/
def Obligations.DecodeInvertsEncode : Prop :=
  ∀ (w : CommandWord) (i : Instr), decode w = .ok i ↔ w = encode i

/-- The legal words are the nine of rule R50, each with its command. -/
def Obligations.NineLegalWords : Prop :=
  (decode 0x00 = .ok .update ∧ decode 0x01 = .ok .setslew ∧ decode 0x02 = .ok .clrslew ∧
    decode 0x03 = .ok (.setdir .stop) ∧ decode 0x13 = .ok (.setdir .forward) ∧ decode 0x23 = .ok (.setdir .backward) ∧
    decode 0x04 = .ok .stop ∧ decode 0x05 = .ok .getspeed ∧ decode 0x06 = .ok .init) ∧
  ∀ (w : CommandWord) (i : Instr), decode w = .ok i →
    w ∈ [0x00, 0x01, 0x02, 0x03, 0x13, 0x23, 0x04, 0x05, 0x06]

/-- Words written out bit by bit from rules R46 to R48 decode to their commands. -/
def Obligations.SpecWordsDecode : Prop :=
  decode 0b00000000 = .ok .update ∧ decode 0b00000001 = .ok .setslew ∧ decode 0b00010011 = .ok (.setdir .forward) ∧
    decode 0b00100011 = .ok (.setdir .backward) ∧ decode 0b00000110 = .ok .init

/-- The assembler gives each spelling the word of its operation, whatever the lines show (rule R56). -/
def Obligations.SpellingsAssemble : Prop :=
  ∀ (sp : Spelling) (lines : Ports), decode (sp.ports lines).cmd = .ok sp.instr

/-- The illegal words are exactly the four classes of rule R51, and a step refuses each by name without a next state
(rule R88). -/
def Obligations.IllegalWordsAreRefused : Prop :=
  ∀ (s : State) (p : Ports) (rest : List Ports), s.cfg.WellFormed → s.pending = p :: rest →
    ((∃ why, step s = .refused (.illegalWord why)) ↔
      (p.cmd.toNat % 8 = 7 ∨ p.cmd.toNat = 0x33 ∨ p.cmd.toNat / 8 % 2 = 1 ∨ p.cmd.toNat / 64 ≠ 0 ∨
        (p.cmd.toNat % 8 ≠ 3 ∧ p.cmd.toNat / 16 % 4 ≠ 0)))

/-! ## The step, the host and refusals -/

/-- A step runs the decoded command, on the state in which that command's ports are presented and it is no longer among
the issued ones (rules R40 and R53; the queue is the model's, log entry 4, as is the emptied result, log entry 6). -/
def Obligations.StepRunsDecodedCommand : Prop :=
  ∀ (s : State) (p : Ports) (rest : List Ports) (i : Instr),
    s.cfg.WellFormed → s.pending = p :: rest → decode p.cmd = .ok i →
      step s = exec i { s with ports := p, pending := rest, result := none }

/-- A word that is placed for the next fetch is the one the next step runs, with nothing else of the machine changed:
in place of the oldest issued command's word, on that command's operand ports, or, where none is issued, as a new command
whose operand ports are zero (the model's queue, log entry 4, and the model's zeros, log entry 5). -/
def Obligations.PlacedWordIsRun : Prop :=
  ∀ (s : State) (w : CommandWord) (i : Instr), s.cfg.WellFormed → decode w = .ok i →
    (∀ p rest, s.pending = p :: rest → step (s.withFetchWord 8 w.toNat) =
      exec i { s with ports := { p with cmd := w }, pending := rest, result := none }) ∧
    (s.pending = [] → step (s.withFetchWord 8 w.toNat) =
      exec i { s with
        ports := { cmd := w, msNow := 0, usNow := 0, pos := 0, rate := 0 }, pending := [], result := none })

/-- With no command issued a step holds the state (the model's choice, log entry 5). -/
def Obligations.StepWaitsWithoutCommand : Prop :=
  ∀ s : State, s.cfg.WellFormed → s.pending = [] → step s = .next s

/-- Commands take effect in the order issued: what stands behind a command sequence is performed on the state that the
sequence leaves (R42, through the model's queue, log entry 4). -/
def Obligations.CommandsTakeEffectInOrder : Prop :=
  ∀ (ps qs : List Ports) (s t : State),
    Host.Core.run core ps.length { s with pending := ps } = .next t →
      t.pending = [] ∧
      ∀ n, Host.Core.run core (ps.length + n) { s with pending := ps ++ qs } =
        Host.Core.run core n { t with pending := qs }

/-- A legal command is never refused and never faults, whatever the ports and the registers hold: it has exactly one
result, under the rules of its operation (R86 and R87; the step's part through the model's queue, log entry 4). -/
def Obligations.LegalCommandsComplete : Prop :=
  (∀ (i : Instr) (s : State), ∃ t, exec i s = .next t) ∧
  ∀ (s : State) (p : Ports) (rest : List Ports), s.cfg.WellFormed → s.pending = p :: rest → Legal p →
    ∃ t, step s = .next t ∧ t.pending = rest ∧ t.ports = p

/-- An illegal word writes no register and sets the refusal mark; the host goes on behind it (rule R88; the command is
dropped by the host, log entry 7). -/
def Obligations.IllegalWordSetsMarkOnly : Prop :=
  ∀ (s : State) (p : Ports) (rest : List Ports), s.cfg.WellFormed → s.pending = p :: rest → ¬Legal p →
    s.serve = { s with pending := rest, refusalMark := true }

/-- No later command clears the refusal mark (rule R88, in the model's serving loop, log entry 7). -/
def Obligations.RefusalMarkIsKept : Prop :=
  ∀ (k : Nat) (s : State), s.refusalMark = true → (State.serveMany k s).refusalMark = true

/-- The run over a command sequence ends without a refusal exactly when every word of it is legal: that no refusal
occurred is false of every run that presents an illegal word (rule R88). -/
def Obligations.UnrefusedRunsAreTheLegalOnes : Prop :=
  ∀ s : State, s.cfg.WellFormed →
    (Unrefused (State.serveMany s.pending.length s) ↔ Unrefused s ∧ ∀ p ∈ s.pending, Legal p)

/-- A configuration that breaks rule R10 has no reset state and no runs (rule R89). -/
def Obligations.MalformedConfigurationIsRefused : Prop :=
  (∀ c : Config, State.resetWith c = none ↔
    ¬(1 ≤ c.clkW ∧ (1 ≤ c.sampleMs ∧ c.sampleMs < 2 ^ c.clkW) ∧ (1 ≤ c.periodUs ∧ c.periodUs < 2 ^ c.clkW) ∧
      c.degMin < c.degMax)) ∧
  ∀ s : State, ¬s.cfg.WellFormed → step s = .refused .malformedConfig

/-- The configuration is fixed: no step of the machine and no refusal changes it (rules R32 and R100). -/
def Obligations.ConfigurationIsNeverWritten : Prop :=
  (∀ s t : State, step s = .next t → t.cfg = s.cfg) ∧ ∀ (k : Nat) (s : State), (State.serveMany k s).cfg = s.cfg

/-- Instances share no state: a step of one leaves every other one as it was (rules R41 and R96; that instances are a
list of states, and that a refused step of one refuses the step of the whole, is the model's choice, log entry 11). -/
def Obligations.InstancesAreIndependent : Prop :=
  ∀ (k : Nat) (fleet fleet' : List State), stepInstance k fleet = .next fleet' →
    fleet'.length = fleet.length ∧ (∀ j, j ≠ k → fleet'[j]? = fleet[j]?) ∧
    ∀ s, fleet[k]? = some s → ∃ t, step s = .next t ∧ fleet'[k]? = some t

/-- Instances run side by side as each does alone: after the host has served instances in any order, instance `j` is what
serving it alone as many times gives, refusals of the others included (rule R96; that a refusal marks its own instance and
the joint run goes on is the model's choice, log entry 11, as is the serving loop, log entry 7). -/
def Obligations.ServedInstancesRunAsAlone : Prop :=
  ∀ (order : List Nat) (fleet : List State) (j : Nat),
    (serveFleet order fleet)[j]? = fleet[j]?.map (State.serveMany (order.count j))

/-! ## Reset -/

/-- Reset puts every register at its value of rule R35, under every well-formed configuration. -/
def Obligations.ResetRegisterValues : Prop :=
  ∀ c : Config, c.WellFormed → ∃ s, State.resetWith c = some s ∧ s.cfg = c ∧
    s.regs.active = false ∧ s.regs.duty = 1 ∧ s.regs.des = 0 ∧ s.regs.lpos = 0 ∧ s.regs.ltime = 0 ∧
    s.regs.base = false ∧ s.regs.cstart = 0 ∧ s.regs.spd = 0 ∧ s.regs.en = true ∧ s.regs.pa = false ∧ s.regs.pb = false

/-- The reset states meet the invariant. -/
def Obligations.ResetMeetsInvariant : Prop :=
  StateInv State.reset ∧ ∀ (c : Config) (s : State), State.resetWith c = some s → StateInv s

/-- Every step keeps the invariant: the duty stays in [0, 1], the speed stays a magnitude, Idle and Slewing keep their
desired speed and duty, the direction pins are never both high (R34(a) to (f)), the timestamps stay in their domain. -/
def Obligations.EveryStepKeepsInvariant : Prop :=
  ∀ s t : State, StateInv s → step s = .next t → StateInv t

/-- For any sequence of commands, gains and errors, the duty stays in [0, 1] (R18 and R72): in every state that a run
of the host's serving loop (log entry 7) reaches from the reset of any well-formed configuration, whatever commands are
issued. -/
def Obligations.DutyStaysInUnitInterval : Prop :=
  ∀ (c : Config) (ps : List Ports) (k : Nat), c.WellFormed →
    0 ≤ (State.serveMany k { State.resetUnder c with pending := ps }).regs.duty ∧
      (State.serveMany k { State.resetUnder c with pending := ps }).regs.duty ≤ 1

/-- No run depends on the reset values of LPOS, LTIME, BASE and CSTART (R35, by the spec's decision D18): with any other
values of these four in the reset state, the same commands lead to the same outputs, results, operating state, desired
speed, duty and refusal mark (in the model's serving loop, log entry 7). -/
def Obligations.HiddenResetValuesDoNotMatter : Prop :=
  ∀ (c : Config) (ps : List Ports) (k : Nat) (lpos : Int) (ltime cstart : Ticks) (base : Bit), c.WellFormed →
    ∃ s t, s = State.serveMany k { State.resetUnder c with pending := ps } ∧
      t = State.serveMany k { State.resetUnder c with
        pending := ps
        regs := { Regs.reset with lpos := lpos, ltime := ltime, cstart := cstart, base := base } } ∧
      t.outputs = s.outputs ∧ t.result = s.result ∧ t.refusalMark = s.refusalMark ∧ t.regs.active = s.regs.active ∧
      t.regs.des = s.regs.des ∧ t.regs.duty = s.regs.duty

/-! ## Direction driver and stop -/

/-- SETDIR drives the pins to the pattern of its direction and writes nothing else (rules R48 and R60). -/
def Obligations.SetdirDrivesPins : Prop :=
  (decode 0x03 = .ok (.setdir .stop) ∧ decode 0x13 = .ok (.setdir .forward) ∧ decode 0x23 = .ok (.setdir .backward) ∧
    ∀ i, decode 0x33 ≠ .ok i) ∧
  ∀ s : State,
    exec (.setdir .stop) s = .next { s with regs := { s.regs with pa := false, pb := false } } ∧
    exec (.setdir .forward) s = .next { s with regs := { s.regs with pa := true, pb := false } } ∧
    exec (.setdir .backward) s = .next { s with regs := { s.regs with pa := false, pb := true } }

/-- STOP sets the pins to stop, forces EN low and writes nothing else; repeating it changes nothing, and in Idle EN
stays low through UPDATEs (rule R61, by the spec's decision D13). -/
def Obligations.StopCutsEnable : Prop :=
  decode 0x04 = .ok .stop ∧
  ∀ s : State, ∃ t, exec .stop s = .next t ∧
    t = { s with regs := { s.regs with pa := false, pb := false, en := false } } ∧
    exec .stop t = .next t ∧ (s.regs.active = false → exec .update t = .next t)

/-- The direction driver does not disturb the loop: SETDIR and UPDATE give the same state in either order (R60). -/
def Obligations.SetdirCommutesWithUpdate : Prop :=
  ∀ (d : Direction) (s t u : State), exec (.setdir d) s = .next t → exec .update t = .next u →
    ∃ v, exec .update s = .next v ∧ exec (.setdir d) v = .next u

/-- STOP does not leave Slewing: the next UPDATE writes EN just as if there had been no STOP, with the pins at stop
(R62, by the spec's decision D13). -/
def Obligations.StopDoesNotLeaveSlewing : Prop :=
  ∀ (s t u v : State), s.regs.active = true → exec .stop s = .next t → exec .update t = .next u →
    exec .update s = .next v →
    u = { v with regs := { v.regs with pa := false, pb := false } } ∧ u.regs.active = true

/-! ## UPDATE -/

/-- UPDATE in Idle changes nothing (rule R64). -/
def Obligations.UpdateInIdleChangesNothing : Prop :=
  ∀ s : State, s.regs.active = false → exec .update s = .next s

/-- UPDATE that takes the baseline sample: position and timestamp recorded, whatever time has passed, the duty and the
speed unchanged, and the PWM stage run (R65). -/
def Obligations.UpdateTakesBaseline : Prop :=
  ∀ s : State, s.regs.active = true → s.regs.base = false →
    ∃ cstart en, PwmLeaves s.cfg s.ports.usNow s.regs.cstart s.regs.duty cstart en ∧
      exec .update s = .next { s with regs := { s.regs with
        lpos := s.ports.pos, ltime := s.ports.msNow % 2 ^ s.cfg.clkW, base := true, cstart := cstart, en := en } }

/-- UPDATE with the sampling gate closed: the PWM stage only (R66). -/
def Obligations.UpdateWithGateClosed : Prop :=
  ∀ (s : State) (dt : Nat), s.regs.active = true → s.regs.base = true →
    ElapsedIs s.cfg s.regs.ltime s.ports.msNow dt → dt < s.cfg.sampleMs →
    ∃ cstart en, PwmLeaves s.cfg s.ports.usNow s.regs.cstart s.regs.duty cstart en ∧
      exec .update s = .next { s with regs := { s.regs with cstart := cstart, en := en } }

/-- UPDATE with a measurement: the speed of the corrected delta over the elapsed time, its magnitude stored, the
proportional law on the error, the clamp, the bookkeeping, and the PWM stage on the new duty (R66 to R76 and R79). -/
def Obligations.UpdateMeasures : Prop :=
  ∀ (s : State) (dt : Nat) (d : Int), s.regs.active = true → s.regs.base = true →
    ElapsedIs s.cfg s.regs.ltime s.ports.msNow dt → s.cfg.sampleMs ≤ dt →
    CorrectedIs (s.cfg.degMax - s.cfg.degMin) (s.ports.pos - s.regs.lpos) d →
    ∃ (spd duty : Rat) (cstart : Ticks) (en : Bit),
      spd = |(d : Rat) * 1000 / (dt : Rat)| ∧
      duty = min 1 (max 0 (s.regs.duty + s.cfg.kp * (s.regs.des - spd))) ∧
      PwmLeaves s.cfg s.ports.usNow s.regs.cstart duty cstart en ∧
      exec .update s = .next { s with regs := { s.regs with
        spd := spd, duty := duty, lpos := s.ports.pos, ltime := s.ports.msNow % 2 ^ s.cfg.clkW,
        cstart := cstart, en := en } }

/-- The frame of UPDATE: whatever it does, ACTIVE, DES, the direction pins, the configuration, the ports, the issued
commands, the result and the refusal mark stay (R63). -/
def Obligations.UpdateFrame : Prop :=
  ∀ s t : State, exec .update s = .next t →
    t = { s with regs := { s.regs with
      duty := t.regs.duty, lpos := t.regs.lpos, ltime := t.regs.ltime, base := t.regs.base,
      cstart := t.regs.cstart, spd := t.regs.spd, en := t.regs.en } }

/-- After every UPDATE in Slewing the time since the cycle start is less than one period (R22 and R78(a)). -/
def Obligations.CycleStartWithinOnePeriod : Prop :=
  ∀ (s t : State) (e : Nat), s.cfg.WellFormed → s.regs.active = true → exec .update s = .next t →
    ElapsedIs s.cfg t.regs.cstart s.ports.usNow e → e < s.cfg.periodUs

/-- The forced levels of EN agree with the one comparison of the in-cycle time with the exact on-time (R77). -/
def Obligations.EnableIsOneComparison : Prop :=
  ∀ (s t : State) (e : Nat), StateInv s → s.regs.active = true → exec .update s = .next t →
    ElapsedIs s.cfg t.regs.cstart s.ports.usNow e →
      (t.regs.en = true ↔ (e : Rat) < t.regs.duty * (s.cfg.periodUs : Rat))

/-- The schedule of R78(b), step by step.  In Slewing, with CSTART at the last point `start + k * PERIOD_US` not after
`now`: an UPDATE at an unwrapped time that is not before `now`, and less than 2^CLK_W after that point, leaves CSTART at
the last point not after its own time, and every other command that keeps the loop leaves CSTART at its point.  The bound
is R105's, on the elapsed time `US_NOW ⊖ CSTART` itself, and not R78(b)'s on the gap (log entry 12). -/
def Obligations.EveryStepKeepsSchedule : Prop :=
  ∀ (s t : State) (start now k : Nat) (p : Ports) (rest : List Ports), s.cfg.WellFormed → s.regs.active = true →
    s.pending = p :: rest → KeepsLoop p → AtPoint s.cfg start now k s.regs.cstart →
    now < start + (k + 1) * s.cfg.periodUs → step s = .next t →
      t.regs.active = true ∧ t.cfg = s.cfg ∧
      (¬Carries p .update → t.regs.cstart = s.regs.cstart ∧ OnSchedule s.cfg start now t.regs.cstart) ∧
      (Carries p .update → now ≤ p.usNow → p.usNow < start + k * s.cfg.periodUs + s.cfg.clockSpan →
        OnSchedule s.cfg start p.usNow t.regs.cstart)

/-- What holds of R78(b) for gaps of any length: from a SETSLEW with a positive rate at `c0` on, over any commands that
keep the loop and UPDATE times that never go back, the cycle start is always a point `c0 + k * PERIOD_US` that is not
after the last UPDATE's time.  That it is the last such point needs the bound of R105 (`Obligations.DriftFreeSchedule`). -/
def Obligations.CycleStartsStayOnSchedulePoints : Prop :=
  ∀ (bound : Nat) (s t : State) (p : Ports) (ps : List Ports), s.cfg.WellFormed → s.pending = p :: ps →
    Carries p .setslew → 0 < p.rate → (∀ q ∈ ps, KeepsLoop q) → SpacedBy bound p.usNow (updateTimes ps) →
    Host.Core.run core (ps.length + 1) s = .next t →
      ∃ k, AtPoint s.cfg p.usNow (lastTime p.usNow (updateTimes ps)) k t.regs.cstart

/-- The drift-free schedule (R78(b)): from a SETSLEW with a positive rate on, over any commands that keep the loop, the
cycle start is the last point of the ideal schedule that is not after the last UPDATE's time.  The gaps are bounded so
that a gap and one period together fit in the clock, as R105 asks of the elapsed time: R78(b) bounds them by the clock
alone, which is not enough (log entry 12 and `Obligations.DriftFreeUnderClockGapsAlone`). -/
def Obligations.DriftFreeSchedule : Prop :=
  ∀ (s t : State) (p : Ports) (ps : List Ports), s.cfg.WellFormed → s.pending = p :: ps →
    Carries p .setslew → 0 < p.rate → (∀ q ∈ ps, KeepsLoop q) →
    SpacedBy (s.cfg.clockSpan - s.cfg.periodUs) p.usNow (updateTimes ps) →
    Host.Core.run core (ps.length + 1) s = .next t →
      OnSchedule s.cfg p.usNow (lastTime p.usNow (updateTimes ps)) t.regs.cstart

/-- R78(b) with the gaps bounded as it states them, each less than 2^CLK_W: a gap just under the clock span, behind an
in-cycle time that is not zero, makes the elapsed time of R74 alias, and the cycle start leaves the schedule.  The
statement is expected to fail (log entry 12). -/
def Obligations.DriftFreeUnderClockGapsAlone : Prop :=
  ∀ (s t : State) (p : Ports) (ps : List Ports), s.cfg.WellFormed → s.pending = p :: ps →
    Carries p .setslew → 0 < p.rate → (∀ q ∈ ps, KeepsLoop q) →
    SpacedBy (s.cfg.clockSpan - 1) p.usNow (updateTimes ps) →
    Host.Core.run core (ps.length + 1) s = .next t →
      OnSchedule s.cfg p.usNow (lastTime p.usNow (updateTimes ps)) t.regs.cstart

/-- The same UPDATE repeated with the same port values changes nothing more: it is no measurement, and it writes the
same EN (R80(j)). -/
def Obligations.RepeatedUpdateChangesNothing : Prop :=
  ∀ s t : State, s.cfg.WellFormed → exec .update s = .next t → exec .update t = .next t

/-- The wrap correction recovers the true motion: between two bearings of the calibrated range, a motion of less than
half the range is measured as it was, across the boundary too (R68 and R107). -/
def Obligations.WrapCorrectionRecoversMotion : Prop :=
  ∀ (s t : State) (dt : Nat) (motion turns : Int), s.cfg.WellFormed → s.regs.active = true → s.regs.base = true →
    ElapsedIs s.cfg s.regs.ltime s.ports.msNow dt → s.cfg.sampleMs ≤ dt →
    s.cfg.degMin ≤ s.regs.lpos → s.regs.lpos ≤ s.cfg.degMax → s.cfg.degMin ≤ s.ports.pos → s.ports.pos ≤ s.cfg.degMax →
    s.ports.pos = s.regs.lpos + motion + turns * (s.cfg.degMax - s.cfg.degMin) →
    2 * |motion| < s.cfg.degMax - s.cfg.degMin → exec .update s = .next t →
      t.regs.spd = |(motion : Rat)| * 1000 / (dt : Rat)

/-- The wrap correction is strict at half the range and is applied once: up to one and a half ranges it brings the delta
to at most half the range, beyond that it does not (R68). -/
def Obligations.WrapCorrectionIsAppliedOnce : Prop :=
  ∀ range d : Int, 1 ≤ range →
    (2 * |d| ≤ range → wrapDelta range d = d) ∧
    (range < 2 * |d| → 0 < d → wrapDelta range d = d - range) ∧
    (range < 2 * |d| → d < 0 → wrapDelta range d = d + range) ∧
    (2 * |d| ≤ 3 * range → 2 * |wrapDelta range d| ≤ range) ∧
    (3 * range < 2 * |d| → range < 2 * |wrapDelta range d|)

/-- Where the measured speed is the desired speed the duty stops changing (R71, R72, R80(e)). -/
def Obligations.ZeroErrorKeepsDuty : Prop :=
  ∀ s t : State, 0 ≤ s.regs.duty → s.regs.duty ≤ 1 → exec .update s = .next t → t.regs.spd = s.regs.des →
    t.regs.duty = s.regs.duty

/-- With the gain zero no UPDATE changes the duty (R80(f)). -/
def Obligations.ZeroGainKeepsDuty : Prop :=
  ∀ s t : State, 0 ≤ s.regs.duty → s.regs.duty ≤ 1 → s.cfg.kp = 0 → exec .update s = .next t →
    t.regs.duty = s.regs.duty

/-- A duty at a clamp stays there under an error that pushes it further (R72, R80(e) and R109: no anti-windup). -/
def Obligations.DutyHoldsAtTheClamp : Prop :=
  ∀ s t : State, 0 ≤ s.cfg.kp → exec .update s = .next t →
    (s.regs.duty = 1 → t.regs.spd ≤ s.regs.des → t.regs.duty = 1) ∧
    (s.regs.duty = 0 → s.regs.des ≤ t.regs.spd → t.regs.duty = 0)

/-- An UPDATE changes the duty or the speed only by a measurement: in Slewing, behind a baseline sample, and at least
SAMPLE_MS after the last sampling event (R66, R111). -/
def Obligations.DutyMovesOnlyAtMeasurement : Prop :=
  ∀ (s t : State) (dt : Nat), exec .update s = .next t → t.regs.duty ≠ s.regs.duty ∨ t.regs.spd ≠ s.regs.spd →
    ElapsedIs s.cfg s.regs.ltime s.ports.msNow dt →
      s.regs.active = true ∧ s.regs.base = true ∧ s.cfg.sampleMs ≤ dt

/-- Cold start (R65 and R111): behind a SETSLEW with a positive rate, and any commands that leave the loop alone, the
first UPDATE is the baseline sample and changes neither the duty nor the speed, whatever the position and the clocks. -/
def Obligations.ColdStartKeepsDuty : Prop :=
  ∀ (s : State) (p q : Ports) (mid rest : List Ports), s.cfg.WellFormed → s.pending = p :: mid ++ q :: rest →
    Carries p .setslew → 0 < p.rate → (∀ m ∈ mid, LeavesLoopAlone m) → Carries q .update →
    ∃ t, Host.Core.run core (mid.length + 2) s = .next t ∧ t.pending = rest ∧
      t.regs.duty = s.regs.duty ∧ t.regs.spd = s.regs.spd ∧ t.regs.active = true ∧ t.regs.base = true ∧
      t.regs.des = p.rate ∧ t.regs.lpos = q.pos ∧ t.regs.ltime = q.msNow % 2 ^ s.cfg.clkW

/-! ## Mode control -/

/-- SETSLEW with a positive rate: the five writes of rule R81, from either operating state, and nothing else (by the
spec's decisions D9 and D10). -/
def Obligations.SetslewEntersSlewing : Prop :=
  decode 0x01 = .ok .setslew ∧
  ∀ s : State, 0 < s.ports.rate →
    exec .setslew s = .next { s with regs := { s.regs with
      des := s.ports.rate, active := true, base := false, ltime := s.ports.msNow % 2 ^ s.cfg.clkW,
      cstart := s.ports.usNow % 2 ^ s.cfg.clkW } }

/-- SETSLEW with a rate that is not positive does what CLRSLEW does (rule R82). -/
def Obligations.SetslewNonPositiveIsClrslew : Prop :=
  decode 0x01 = .ok .setslew ∧
  ∀ s : State, s.ports.rate ≤ 0 → exec .setslew s = exec .clrslew s ∧
    exec .setslew s = .next { s with regs := { s.regs with active := false, des := 0, duty := 1, en := true } }

/-- CLRSLEW: the four writes of rule R83, complete in the command, and idempotent (by the spec's decision D11). -/
def Obligations.ClrslewEntersIdle : Prop :=
  decode 0x02 = .ok .clrslew ∧
  ∀ s : State, ∃ t, exec .clrslew s = .next t ∧
    t = { s with regs := { s.regs with active := false, des := 0, duty := 1, en := true } } ∧ exec .clrslew t = .next t

/-- INIT: the three writes of rule R84, idempotent; a following UPDATE in Slewing drives EN just as without it (by the
spec's decision D19). -/
def Obligations.InitDrivesDefaultOutputs : Prop :=
  decode 0x06 = .ok .init ∧
  ∀ s : State, ∃ t, exec .init s = .next t ∧
    t = { s with regs := { s.regs with pa := false, pb := false, en := true } } ∧ exec .init t = .next t ∧
    ∀ u v, s.regs.active = true → exec .update t = .next u → exec .update s = .next v → u.regs.en = v.regs.en

/-- INIT right after reset changes no register (R102, by the spec's decision D19). -/
def Obligations.InitAfterResetChangesNothing : Prop :=
  ∀ (c : Config) (s : State), State.resetWith c = some s → exec .init s = .next s

/-- GETSPEED returns SPD, which SPEED_OUT shows, and writes no register (R26 and R85; the result is a field of the
model's own, log entry 6). -/
def Obligations.GetspeedReturnsSpeed : Prop :=
  decode 0x05 = .ok .getspeed ∧
  (∀ s : State, exec .getspeed s = .next { s with result := some s.regs.spd } ∧ s.speedOut = s.regs.spd) ∧
  ∀ (c : Config) (s : State), State.resetWith c = some s → exec .getspeed s = .next { s with result := some 0 }

/-- The state machine of rule R86: only SETSLEW and CLRSLEW change ACTIVE, from either state, with no rejection. -/
def Obligations.OperatingStateTransitions : Prop :=
  ∀ (i : Instr) (s : State), ∃ t, exec i s = .next t ∧
    (t.regs.active = true ↔ (i = .setslew ∧ 0 < s.ports.rate) ∨
      (s.regs.active = true ∧ i ≠ .setslew ∧ i ≠ .clrslew))

/-! ## What only some commands do -/

/-- The outputs change only at the commands that R24, R25 and R45 list (the model's queue, log entry 4). -/
def Obligations.OutputsMoveOnlyAtListedCommands : Prop :=
  ∀ s t : State, step s = .next t →
    (t.regs.en ≠ s.regs.en → ∃ p rest, s.pending = p :: rest ∧
      ((Carries p .update ∧ s.regs.active = true) ∨ Carries p .stop ∨ Carries p .clrslew ∨
        (Carries p .setslew ∧ p.rate ≤ 0) ∨ Carries p .init)) ∧
    (t.regs.pa ≠ s.regs.pa ∨ t.regs.pb ≠ s.regs.pb → ∃ p rest, s.pending = p :: rest ∧
      ((∃ d, Carries p (.setdir d)) ∨ Carries p .stop ∨ Carries p .init))

/-- Each of the eight controller registers changes only at the commands that rules R16 to R23 list, and to the value they
write (the model's queue, log entry 4). -/
def Obligations.LoopRegistersMoveOnlyAtListedCommands : Prop :=
  ∀ s t : State, step s = .next t →
    (t.regs.active ≠ s.regs.active → ∃ p rest, s.pending = p :: rest ∧
      ((Carries p .setslew ∧ 0 < p.rate ∧ t.regs.active = true) ∨
        ((Carries p .clrslew ∨ (Carries p .setslew ∧ p.rate ≤ 0)) ∧ t.regs.active = false))) ∧
    (t.regs.des ≠ s.regs.des → ∃ p rest, s.pending = p :: rest ∧
      ((Carries p .setslew ∧ 0 < p.rate ∧ t.regs.des = p.rate) ∨
        ((Carries p .clrslew ∨ (Carries p .setslew ∧ p.rate ≤ 0)) ∧ t.regs.des = 0))) ∧
    (t.regs.duty ≠ s.regs.duty → ∃ p rest, s.pending = p :: rest ∧
      ((Carries p .update ∧ s.regs.active = true ∧ s.regs.base = true) ∨
        ((Carries p .clrslew ∨ (Carries p .setslew ∧ p.rate ≤ 0)) ∧ t.regs.duty = 1))) ∧
    (t.regs.spd ≠ s.regs.spd → ∃ p rest, s.pending = p :: rest ∧ Carries p .update ∧ s.regs.active = true ∧
      s.regs.base = true) ∧
    (t.regs.lpos ≠ s.regs.lpos → ∃ p rest, s.pending = p :: rest ∧ Carries p .update ∧ s.regs.active = true ∧
      t.regs.lpos = p.pos) ∧
    (t.regs.base ≠ s.regs.base → ∃ p rest, s.pending = p :: rest ∧
      ((Carries p .update ∧ s.regs.active = true ∧ t.regs.base = true) ∨
        (Carries p .setslew ∧ 0 < p.rate ∧ t.regs.base = false))) ∧
    (t.regs.ltime ≠ s.regs.ltime → ∃ p rest, s.pending = p :: rest ∧
      ((Carries p .update ∧ s.regs.active = true) ∨ (Carries p .setslew ∧ 0 < p.rate)) ∧
        t.regs.ltime = p.msNow % 2 ^ s.cfg.clkW) ∧
    (t.regs.cstart ≠ s.regs.cstart → ∃ p rest, s.pending = p :: rest ∧
      ((Carries p .update ∧ s.regs.active = true) ∨
        (Carries p .setslew ∧ 0 < p.rate ∧ t.regs.cstart = p.usNow % 2 ^ s.cfg.clkW)))

/-- A port that a command does not sample has no effect (R44 and R54): two presentations that agree on the sampled ports
give the same registers and the same result. -/
def Obligations.UnsampledPortsHaveNoEffect : Prop :=
  ∀ (i : Instr) (s t : State) (p : Ports), Ports.AgreeOn (portsRead i s) s.ports p → exec i s = .next t →
    exec i { s with ports := p } = .next { t with ports := p }

/-- The block is in Idle with EN low only behind a STOP with no CLRSLEW, SETSLEW of a rate that is not positive, or INIT
behind that STOP (R34(g)). -/
def Obligations.IdleWithEnableLowOnlyAfterStop : Prop :=
  ∀ (c : Config) (ps : List Ports) (t : State), c.WellFormed →
    Host.Core.run core ps.length { State.resetUnder c with pending := ps } = .next t →
    t.regs.active = false → t.regs.en = false →
      ∃ before p after, ps = before ++ p :: after ∧ Carries p .stop ∧ ∀ q ∈ after, ¬RestoresEnable q

/-! ## Clocks -/

/-- The elapsed time is the true gap modulo the clock span: exact below it, aliased at and above it (R105), and a clock
that steps back by `k` gives `2 ^ CLK_W - k` (R106). -/
def Obligations.ElapsedTimeAliases : Prop :=
  (∀ w start gap : Nat, clockSub w ((start + gap) % 2 ^ w) (start % 2 ^ w) = gap % 2 ^ w) ∧
  ∀ w now k : Nat, 0 < k → k ≤ now → now < 2 ^ w → clockSub w (now - k) now = 2 ^ w - k

/-- `a ⊖ b` is the one value in `UInt(width)` that added to `b` gives `a`, and `⊕` undoes it (R14). -/
def Obligations.ClockArithmetic : Prop :=
  ∀ w a b : Nat, a < 2 ^ w → b < 2 ^ w →
    clockSub w a b < 2 ^ w ∧ clockAdd w b (clockSub w a b) = a ∧ clockSub w (clockAdd w a b) b = a ∧
      (clockSub w a b : Int) = ((a : Int) - (b : Int)) % (2 ^ w : Int)
end

