-- ==== Sys2Proof/Laws/Arithmetic.lean ====
section
/-! SUPPORT. The arithmetic helpers of rule R14: what each can do, once. -/

namespace Sys2Proof.Machine

theorem two_pow_pos (w : Nat) : 0 < 2 ^ w := Nat.two_pow_pos w

/-- `a ⊖ b` lies in `UInt(width)`. -/
theorem clockSub_lt (w a b : Nat) : clockSub w a b < 2 ^ w := by
  have hz : (0 : Int) < ((2 ^ w : Nat) : Int) := by exact_mod_cast two_pow_pos w
  have h := Int.emod_lt_of_pos ((a : Int) - b) hz
  have h0 := Int.emod_nonneg ((a : Int) - b) hz.ne'
  exact (Int.toNat_lt h0).mpr h

/-- `a ⊖ b` is the integer difference modulo `2 ^ width`. -/
theorem clockSub_cast (w a b : Nat) : (clockSub w a b : Int) = ((a : Int) - b) % ((2 ^ w : Nat) : Int) := by
  have hz : (0 : Int) < ((2 ^ w : Nat) : Int) := by exact_mod_cast two_pow_pos w
  exact Int.toNat_of_nonneg (Int.emod_nonneg _ hz.ne')

/-- `a ⊖ b` added to `b` gives `a`, modulo `2 ^ width`. -/
theorem add_clockSub_mod (w a b : Nat) : (b + clockSub w a b) % 2 ^ w = a % 2 ^ w := by
  have h := clockSub_cast w a b
  have hc : ((b + clockSub w a b : Nat) : Int) % ((2 ^ w : Nat) : Int) = (a : Int) % ((2 ^ w : Nat) : Int) := by
    push_cast [h]
    rw [Int.add_emod_emod]
    congr 1
    omega
  exact_mod_cast hc

/-- `a ⊖ b` is the only value of `UInt(width)` that added to `b` gives `a` modulo `2 ^ width`. -/
theorem clockSub_unique {w a b e : Nat} (he : e < 2 ^ w) (h : (b + e) % 2 ^ w = a % 2 ^ w) : clockSub w a b = e := by
  have hz := two_pow_pos w
  have h1 : (b + clockSub w a b) ≡ (b + e) [MOD 2 ^ w] := (add_clockSub_mod w a b).trans h.symm
  exact Nat.ModEq.eq_of_lt_of_lt (Nat.ModEq.add_left_cancel' b h1) (clockSub_lt w a b) he

theorem clockAdd_lt (w a b : Nat) : clockAdd w a b < 2 ^ w := Nat.mod_lt _ (two_pow_pos w)

theorem clockPort_lt (w v : Nat) : clockPort w v < 2 ^ w := Nat.mod_lt _ (two_pow_pos w)

/-- A port shows a value of its domain as it is (rule R49; log entry 3). -/
theorem clockPort_of_lt {w v : Nat} (h : v < 2 ^ w) : clockPort w v = v := Nat.mod_eq_of_lt h

theorem clamp01_nonneg (x : Rat) : 0 ≤ clamp01 x := le_min zero_le_one (le_max_left 0 x)

theorem clamp01_le_one (x : Rat) : clamp01 x ≤ 1 := min_le_left 1 _

/-- The clamp leaves a value of [0, 1] as it is. -/
theorem clamp01_of_mem {x : Rat} (h0 : 0 ≤ x) (h1 : x ≤ 1) : clamp01 x = x := by
  rw [clamp01, max_eq_right h0, min_eq_right h1]

theorem clamp01_of_one_le {x : Rat} (h : 1 ≤ x) : clamp01 x = 1 := by
  rw [clamp01, max_eq_right (zero_le_one.trans h), min_eq_left h]

theorem clamp01_of_nonpos {x : Rat} (h : x ≤ 0) : clamp01 x = 0 := by
  rw [clamp01, max_eq_left h, min_eq_right zero_le_one]

end Sys2Proof.Machine
end

