-- ==== Sys2Proof/Laws/Registers.lean ====
section
/-! SUPPORT. One lemma per register for each register write of Machine/Ops.lean. -/

namespace Sys2Proof.Machine

@[simp] theorem Regs.driveDirection_active (r : Regs) (d : Direction) : (r.driveDirection d).active = r.active := rfl
@[simp] theorem Regs.driveDirection_des (r : Regs) (d : Direction) : (r.driveDirection d).des = r.des := rfl
@[simp] theorem Regs.driveDirection_duty (r : Regs) (d : Direction) : (r.driveDirection d).duty = r.duty := rfl
@[simp] theorem Regs.driveDirection_lpos (r : Regs) (d : Direction) : (r.driveDirection d).lpos = r.lpos := rfl
@[simp] theorem Regs.driveDirection_ltime (r : Regs) (d : Direction) : (r.driveDirection d).ltime = r.ltime := rfl
@[simp] theorem Regs.driveDirection_base (r : Regs) (d : Direction) : (r.driveDirection d).base = r.base := rfl
@[simp] theorem Regs.driveDirection_cstart (r : Regs) (d : Direction) : (r.driveDirection d).cstart = r.cstart := rfl
@[simp] theorem Regs.driveDirection_spd (r : Regs) (d : Direction) : (r.driveDirection d).spd = r.spd := rfl
@[simp] theorem Regs.driveDirection_en (r : Regs) (d : Direction) : (r.driveDirection d).en = r.en := rfl
@[simp] theorem Regs.driveDirection_pa (r : Regs) (d : Direction) : (r.driveDirection d).pa = Direction.pa d := rfl
@[simp] theorem Regs.driveDirection_pb (r : Regs) (d : Direction) : (r.driveDirection d).pb = Direction.pb d := rfl

@[simp] theorem Regs.driveEnable_active (r : Regs) (b : Bit) : (r.driveEnable b).active = r.active := rfl
@[simp] theorem Regs.driveEnable_des (r : Regs) (b : Bit) : (r.driveEnable b).des = r.des := rfl
@[simp] theorem Regs.driveEnable_duty (r : Regs) (b : Bit) : (r.driveEnable b).duty = r.duty := rfl
@[simp] theorem Regs.driveEnable_lpos (r : Regs) (b : Bit) : (r.driveEnable b).lpos = r.lpos := rfl
@[simp] theorem Regs.driveEnable_ltime (r : Regs) (b : Bit) : (r.driveEnable b).ltime = r.ltime := rfl
@[simp] theorem Regs.driveEnable_base (r : Regs) (b : Bit) : (r.driveEnable b).base = r.base := rfl
@[simp] theorem Regs.driveEnable_cstart (r : Regs) (b : Bit) : (r.driveEnable b).cstart = r.cstart := rfl
@[simp] theorem Regs.driveEnable_spd (r : Regs) (b : Bit) : (r.driveEnable b).spd = r.spd := rfl
@[simp] theorem Regs.driveEnable_en (r : Regs) (b : Bit) : (r.driveEnable b).en = b := rfl
@[simp] theorem Regs.driveEnable_pa (r : Regs) (b : Bit) : (r.driveEnable b).pa = r.pa := rfl
@[simp] theorem Regs.driveEnable_pb (r : Regs) (b : Bit) : (r.driveEnable b).pb = r.pb := rfl

@[simp] theorem Regs.enterIdle_active (r : Regs) : (r.enterIdle).active = false := rfl
@[simp] theorem Regs.enterIdle_des (r : Regs) : (r.enterIdle).des = 0 := rfl
@[simp] theorem Regs.enterIdle_duty (r : Regs) : (r.enterIdle).duty = 1 := rfl
@[simp] theorem Regs.enterIdle_lpos (r : Regs) : (r.enterIdle).lpos = r.lpos := rfl
@[simp] theorem Regs.enterIdle_ltime (r : Regs) : (r.enterIdle).ltime = r.ltime := rfl
@[simp] theorem Regs.enterIdle_base (r : Regs) : (r.enterIdle).base = r.base := rfl
@[simp] theorem Regs.enterIdle_cstart (r : Regs) : (r.enterIdle).cstart = r.cstart := rfl
@[simp] theorem Regs.enterIdle_spd (r : Regs) : (r.enterIdle).spd = r.spd := rfl
@[simp] theorem Regs.enterIdle_en (r : Regs) : (r.enterIdle).en = true := rfl
@[simp] theorem Regs.enterIdle_pa (r : Regs) : (r.enterIdle).pa = r.pa := rfl
@[simp] theorem Regs.enterIdle_pb (r : Regs) : (r.enterIdle).pb = r.pb := rfl

@[simp] theorem Regs.enterSlewing_active (r : Regs) (q : Rat) (ms us : Ticks) : (r.enterSlewing q ms us).active = true := rfl
@[simp] theorem Regs.enterSlewing_des (r : Regs) (q : Rat) (ms us : Ticks) : (r.enterSlewing q ms us).des = q := rfl
@[simp] theorem Regs.enterSlewing_duty (r : Regs) (q : Rat) (ms us : Ticks) : (r.enterSlewing q ms us).duty = r.duty := rfl
@[simp] theorem Regs.enterSlewing_lpos (r : Regs) (q : Rat) (ms us : Ticks) : (r.enterSlewing q ms us).lpos = r.lpos := rfl
@[simp] theorem Regs.enterSlewing_ltime (r : Regs) (q : Rat) (ms us : Ticks) : (r.enterSlewing q ms us).ltime = ms := rfl
@[simp] theorem Regs.enterSlewing_base (r : Regs) (q : Rat) (ms us : Ticks) : (r.enterSlewing q ms us).base = false := rfl
@[simp] theorem Regs.enterSlewing_cstart (r : Regs) (q : Rat) (ms us : Ticks) : (r.enterSlewing q ms us).cstart = us := rfl
@[simp] theorem Regs.enterSlewing_spd (r : Regs) (q : Rat) (ms us : Ticks) : (r.enterSlewing q ms us).spd = r.spd := rfl
@[simp] theorem Regs.enterSlewing_en (r : Regs) (q : Rat) (ms us : Ticks) : (r.enterSlewing q ms us).en = r.en := rfl
@[simp] theorem Regs.enterSlewing_pa (r : Regs) (q : Rat) (ms us : Ticks) : (r.enterSlewing q ms us).pa = r.pa := rfl
@[simp] theorem Regs.enterSlewing_pb (r : Regs) (q : Rat) (ms us : Ticks) : (r.enterSlewing q ms us).pb = r.pb := rfl

@[simp] theorem Regs.takeBaseline_active (r : Regs) (z : Int) (ms : Ticks) : (r.takeBaseline z ms).active = r.active := rfl
@[simp] theorem Regs.takeBaseline_des (r : Regs) (z : Int) (ms : Ticks) : (r.takeBaseline z ms).des = r.des := rfl
@[simp] theorem Regs.takeBaseline_duty (r : Regs) (z : Int) (ms : Ticks) : (r.takeBaseline z ms).duty = r.duty := rfl
@[simp] theorem Regs.takeBaseline_lpos (r : Regs) (z : Int) (ms : Ticks) : (r.takeBaseline z ms).lpos = z := rfl
@[simp] theorem Regs.takeBaseline_ltime (r : Regs) (z : Int) (ms : Ticks) : (r.takeBaseline z ms).ltime = ms := rfl
@[simp] theorem Regs.takeBaseline_base (r : Regs) (z : Int) (ms : Ticks) : (r.takeBaseline z ms).base = true := rfl
@[simp] theorem Regs.takeBaseline_cstart (r : Regs) (z : Int) (ms : Ticks) : (r.takeBaseline z ms).cstart = r.cstart := rfl
@[simp] theorem Regs.takeBaseline_spd (r : Regs) (z : Int) (ms : Ticks) : (r.takeBaseline z ms).spd = r.spd := rfl
@[simp] theorem Regs.takeBaseline_en (r : Regs) (z : Int) (ms : Ticks) : (r.takeBaseline z ms).en = r.en := rfl
@[simp] theorem Regs.takeBaseline_pa (r : Regs) (z : Int) (ms : Ticks) : (r.takeBaseline z ms).pa = r.pa := rfl
@[simp] theorem Regs.takeBaseline_pb (r : Regs) (z : Int) (ms : Ticks) : (r.takeBaseline z ms).pb = r.pb := rfl

@[simp] theorem Regs.recordMeasurement_active (r : Regs) (v u : Rat) (z : Int) (ms : Ticks) : (r.recordMeasurement v u z ms).active = r.active := rfl
@[simp] theorem Regs.recordMeasurement_des (r : Regs) (v u : Rat) (z : Int) (ms : Ticks) : (r.recordMeasurement v u z ms).des = r.des := rfl
@[simp] theorem Regs.recordMeasurement_duty (r : Regs) (v u : Rat) (z : Int) (ms : Ticks) : (r.recordMeasurement v u z ms).duty = u := rfl
@[simp] theorem Regs.recordMeasurement_lpos (r : Regs) (v u : Rat) (z : Int) (ms : Ticks) : (r.recordMeasurement v u z ms).lpos = z := rfl
@[simp] theorem Regs.recordMeasurement_ltime (r : Regs) (v u : Rat) (z : Int) (ms : Ticks) : (r.recordMeasurement v u z ms).ltime = ms := rfl
@[simp] theorem Regs.recordMeasurement_base (r : Regs) (v u : Rat) (z : Int) (ms : Ticks) : (r.recordMeasurement v u z ms).base = r.base := rfl
@[simp] theorem Regs.recordMeasurement_cstart (r : Regs) (v u : Rat) (z : Int) (ms : Ticks) : (r.recordMeasurement v u z ms).cstart = r.cstart := rfl
@[simp] theorem Regs.recordMeasurement_spd (r : Regs) (v u : Rat) (z : Int) (ms : Ticks) : (r.recordMeasurement v u z ms).spd = v := rfl
@[simp] theorem Regs.recordMeasurement_en (r : Regs) (v u : Rat) (z : Int) (ms : Ticks) : (r.recordMeasurement v u z ms).en = r.en := rfl
@[simp] theorem Regs.recordMeasurement_pa (r : Regs) (v u : Rat) (z : Int) (ms : Ticks) : (r.recordMeasurement v u z ms).pa = r.pa := rfl
@[simp] theorem Regs.recordMeasurement_pb (r : Regs) (v u : Rat) (z : Int) (ms : Ticks) : (r.recordMeasurement v u z ms).pb = r.pb := rfl

@[simp] theorem Regs.recordPwm_active (r : Regs) (cs : Ticks) (b : Bit) : (r.recordPwm cs b).active = r.active := rfl
@[simp] theorem Regs.recordPwm_des (r : Regs) (cs : Ticks) (b : Bit) : (r.recordPwm cs b).des = r.des := rfl
@[simp] theorem Regs.recordPwm_duty (r : Regs) (cs : Ticks) (b : Bit) : (r.recordPwm cs b).duty = r.duty := rfl
@[simp] theorem Regs.recordPwm_lpos (r : Regs) (cs : Ticks) (b : Bit) : (r.recordPwm cs b).lpos = r.lpos := rfl
@[simp] theorem Regs.recordPwm_ltime (r : Regs) (cs : Ticks) (b : Bit) : (r.recordPwm cs b).ltime = r.ltime := rfl
@[simp] theorem Regs.recordPwm_base (r : Regs) (cs : Ticks) (b : Bit) : (r.recordPwm cs b).base = r.base := rfl
@[simp] theorem Regs.recordPwm_cstart (r : Regs) (cs : Ticks) (b : Bit) : (r.recordPwm cs b).cstart = cs := rfl
@[simp] theorem Regs.recordPwm_spd (r : Regs) (cs : Ticks) (b : Bit) : (r.recordPwm cs b).spd = r.spd := rfl
@[simp] theorem Regs.recordPwm_en (r : Regs) (cs : Ticks) (b : Bit) : (r.recordPwm cs b).en = b := rfl
@[simp] theorem Regs.recordPwm_pa (r : Regs) (cs : Ticks) (b : Bit) : (r.recordPwm cs b).pa = r.pa := rfl
@[simp] theorem Regs.recordPwm_pb (r : Regs) (cs : Ticks) (b : Bit) : (r.recordPwm cs b).pb = r.pb := rfl

/-- No direction drives both pins high (rule R25). -/
theorem Direction.not_both_high (d : Direction) : ¬(Direction.pa d = true ∧ Direction.pb d = true) := by
  cases d <;> simp [Direction.pa, Direction.pb]

end Sys2Proof.Machine
end

