-- ==== Sys2Proof/Laws/ModeControl.lean ====
section
/-! SUPPORT. The two cases of SETSLEW. -/

namespace Sys2Proof.Machine

theorem Regs.setslew_of_pos {rate : Rat} (ms us : Ticks) (r : Regs) (h : 0 < rate) :
    r.setslew rate ms us = r.enterSlewing rate ms us := if_pos h

theorem Regs.setslew_of_nonpos {rate : Rat} (ms us : Ticks) (r : Regs) (h : rate ≤ 0) :
    r.setslew rate ms us = r.enterIdle := if_neg (not_lt.mpr h)

/-- What SETSLEW can do to the registers, and when. -/
theorem Regs.setslew_cases (rate : Rat) (ms us : Ticks) (r : Regs) :
    (0 < rate ∧ r.setslew rate ms us = r.enterSlewing rate ms us) ∨ (rate ≤ 0 ∧ r.setslew rate ms us = r.enterIdle) := by
  rcases lt_or_ge 0 rate with h | h
  · exact .inl ⟨h, Regs.setslew_of_pos ms us r h⟩
  · exact .inr ⟨h, Regs.setslew_of_nonpos ms us r h⟩

end Sys2Proof.Machine
end

