-- ==== Sys2Proof/Laws/PerInstr.lean ====
section
/-! SUPPORT. The families of statements that are made for each operation by itself. -/

namespace Sys2Proof.Laws

/-- The word that the encoder gives an operation decodes to it, as a command word and as a table row's bits. -/
def EncodeRoundTrip.Statement (i : Instr) : Prop :=
  decode (encode i) = .ok i ∧ decodeTableWord 8 (encode i).toNat = some i

theorem EncodeRoundTrip.update : EncodeRoundTrip.Statement .update := ⟨rfl, rfl⟩

theorem EncodeRoundTrip.setslew : EncodeRoundTrip.Statement .setslew := ⟨rfl, rfl⟩

theorem EncodeRoundTrip.clrslew : EncodeRoundTrip.Statement .clrslew := ⟨rfl, rfl⟩

theorem EncodeRoundTrip.setdir (d : Direction) : EncodeRoundTrip.Statement (.setdir d) := by
  cases d <;> exact ⟨rfl, rfl⟩

theorem EncodeRoundTrip.stop : EncodeRoundTrip.Statement .stop := ⟨rfl, rfl⟩

theorem EncodeRoundTrip.getspeed : EncodeRoundTrip.Statement .getspeed := ⟨rfl, rfl⟩

theorem EncodeRoundTrip.init : EncodeRoundTrip.Statement .init := ⟨rfl, rfl⟩

end Sys2Proof.Laws
end

