-- ==== Sys2Proof/Laws/State.lean ====
section
/-! SUPPORT. One lemma per field of the state for each operation that updates the state, and what the operations do to
the values the ports show. -/

namespace Sys2Proof.Machine

@[simp] theorem State.withRegs_cfg (s : State) (r : Regs) : (s.withRegs r).cfg = s.cfg := rfl
@[simp] theorem State.withRegs_regs (s : State) (r : Regs) : (s.withRegs r).regs = r := rfl
@[simp] theorem State.withRegs_ports (s : State) (r : Regs) : (s.withRegs r).ports = s.ports := rfl
@[simp] theorem State.withRegs_pending (s : State) (r : Regs) : (s.withRegs r).pending = s.pending := rfl
@[simp] theorem State.withRegs_result (s : State) (r : Regs) : (s.withRegs r).result = s.result := rfl
@[simp] theorem State.withRegs_refusalMark (s : State) (r : Regs) : (s.withRegs r).refusalMark = s.refusalMark := rfl

@[simp] theorem State.withResult_cfg (s : State) (q : Rat) : (s.withResult q).cfg = s.cfg := rfl
@[simp] theorem State.withResult_regs (s : State) (q : Rat) : (s.withResult q).regs = s.regs := rfl
@[simp] theorem State.withResult_ports (s : State) (q : Rat) : (s.withResult q).ports = s.ports := rfl
@[simp] theorem State.withResult_pending (s : State) (q : Rat) : (s.withResult q).pending = s.pending := rfl
@[simp] theorem State.withResult_result (s : State) (q : Rat) : (s.withResult q).result = some q := rfl
@[simp] theorem State.withResult_refusalMark (s : State) (q : Rat) : (s.withResult q).refusalMark = s.refusalMark := rfl

@[simp] theorem State.issue_cfg (s : State) (p : Ports) : (s.issue p).cfg = s.cfg := rfl
@[simp] theorem State.issue_regs (s : State) (p : Ports) : (s.issue p).regs = s.regs := rfl
@[simp] theorem State.issue_ports (s : State) (p : Ports) : (s.issue p).ports = s.ports := rfl
@[simp] theorem State.issue_pending (s : State) (p : Ports) : (s.issue p).pending = s.pending ++ [p] := rfl
@[simp] theorem State.issue_result (s : State) (p : Ports) : (s.issue p).result = s.result := rfl
@[simp] theorem State.issue_refusalMark (s : State) (p : Ports) : (s.issue p).refusalMark = s.refusalMark := rfl

@[simp] theorem State.present_cfg (s : State) (p : Ports) (rest : List Ports) : (s.present p rest).cfg = s.cfg := rfl
@[simp] theorem State.present_regs (s : State) (p : Ports) (rest : List Ports) : (s.present p rest).regs = s.regs := rfl
@[simp] theorem State.present_ports (s : State) (p : Ports) (rest : List Ports) : (s.present p rest).ports = p := rfl
@[simp] theorem State.present_pending (s : State) (p : Ports) (rest : List Ports) : (s.present p rest).pending = rest := rfl
@[simp] theorem State.present_result (s : State) (p : Ports) (rest : List Ports) : (s.present p rest).result = none := rfl
@[simp] theorem State.present_refusalMark (s : State) (p : Ports) (rest : List Ports) : (s.present p rest).refusalMark = s.refusalMark := rfl

@[simp] theorem State.dropRefused_cfg (s : State) : (s.dropRefused).cfg = s.cfg := rfl
@[simp] theorem State.dropRefused_regs (s : State) : (s.dropRefused).regs = s.regs := rfl
@[simp] theorem State.dropRefused_ports (s : State) : (s.dropRefused).ports = s.ports := rfl
@[simp] theorem State.dropRefused_pending (s : State) : (s.dropRefused).pending = s.pending.tail := rfl
@[simp] theorem State.dropRefused_result (s : State) : (s.dropRefused).result = s.result := rfl
@[simp] theorem State.dropRefused_refusalMark (s : State) : (s.dropRefused).refusalMark = true := rfl

@[simp] theorem State.resetUnder_cfg (c : Config) : (State.resetUnder c).cfg = c := rfl
@[simp] theorem State.resetUnder_regs (c : Config) : (State.resetUnder c).regs = Regs.reset := rfl
@[simp] theorem State.resetUnder_pending (c : Config) : (State.resetUnder c).pending = [] := rfl
@[simp] theorem State.resetUnder_result (c : Config) : (State.resetUnder c).result = none := rfl
@[simp] theorem State.resetUnder_refusalMark (c : Config) : (State.resetUnder c).refusalMark = false := rfl

@[simp] theorem State.withRegs_withRegs (s : State) (r r' : Regs) : (s.withRegs r).withRegs r' = s.withRegs r' := rfl

@[simp] theorem State.withRegs_self (s : State) : s.withRegs s.regs = s := rfl

@[simp] theorem State.withRegs_msNow_shown (s : State) (r : Regs) : (s.withRegs r).msNow = s.msNow := rfl
@[simp] theorem State.withRegs_usNow_shown (s : State) (r : Regs) : (s.withRegs r).usNow = s.usNow := rfl
@[simp] theorem State.withRegs_pos_shown (s : State) (r : Regs) : (s.withRegs r).pos = s.pos := rfl
@[simp] theorem State.withRegs_rate_shown (s : State) (r : Regs) : (s.withRegs r).rate = s.rate := rfl

@[simp] theorem State.present_msNow_shown (s : State) (p : Ports) (rest : List Ports) :
    (s.present p rest).msNow = clockPort s.cfg.clkW p.msNow := rfl
@[simp] theorem State.present_usNow_shown (s : State) (p : Ports) (rest : List Ports) :
    (s.present p rest).usNow = clockPort s.cfg.clkW p.usNow := rfl
@[simp] theorem State.present_pos_shown (s : State) (p : Ports) (rest : List Ports) :
    (s.present p rest).pos = p.pos := rfl
@[simp] theorem State.present_rate_shown (s : State) (p : Ports) (rest : List Ports) :
    (s.present p rest).rate = p.rate := rfl

/-- A word placed where commands are issued replaces the word of the oldest one, and nothing else. -/
theorem State.placeWord_of_cons {s : State} {p : Ports} {rest : List Ports} (w : CommandWord)
    (h : s.pending = p :: rest) : s.placeWord w = { s with pending := { p with cmd := w } :: rest } := by
  simp only [State.placeWord, h]

/-- A word placed where none is issued is issued as a command with quiet operand ports, and nothing else changes. -/
theorem State.placeWord_of_nil {s : State} (w : CommandWord) (h : s.pending = []) :
    s.placeWord w = { s with pending := [{ quietPorts with cmd := w }] } := by
  simp only [State.placeWord, h]

end Sys2Proof.Machine
end

