-- ==== Sys2Proof/Laws/Step.lean ====
section
/-! SUPPORT. What taking a command, one step and one serving can do, once. -/

namespace Sys2Proof.Machine

theorem State.fetch_malformed {s : State} (h : ¬s.cfg.WellFormed) : s.fetch = .refused .malformedConfig := by
  simp only [State.fetch, if_neg h]

theorem State.fetch_waiting {s : State} (hc : s.cfg.WellFormed) (hp : s.pending = []) : s.fetch = .waiting := by
  simp only [State.fetch, if_pos hc, hp]

theorem State.fetch_run {s : State} {p : Ports} {rest : List Ports} {i : Instr} (hc : s.cfg.WellFormed)
    (hp : s.pending = p :: rest) (hd : decode p.cmd = .ok i) : s.fetch = .run i (s.present p rest) := by
  simp only [State.fetch, if_pos hc, hp, hd]

theorem State.fetch_illegal {s : State} {p : Ports} {rest : List Ports} {why : IllegalWord} (hc : s.cfg.WellFormed)
    (hp : s.pending = p :: rest) (hd : decode p.cmd = .error why) : s.fetch = .refused (.illegalWord why) := by
  simp only [State.fetch, if_pos hc, hp, hd]

/-- A step that answers a next state either waited or performed the oldest issued command. -/
theorem step_next_cases {s t : State} (h : step s = .next t) :
    s.cfg.WellFormed ∧ ((s.pending = [] ∧ t = s) ∨
      ∃ p rest i, s.pending = p :: rest ∧ decode p.cmd = .ok i ∧ exec i (s.present p rest) = .next t) := by
  by_cases hc : s.cfg.WellFormed
  · refine ⟨hc, ?_⟩
    cases hp : s.pending with
    | nil =>
      rw [step, State.fetch_waiting hc hp] at h
      exact .inl ⟨rfl, by simpa using h.symm⟩
    | cons p rest =>
      cases hd : decode p.cmd with
      | ok i =>
        rw [step, State.fetch_run hc hp hd] at h
        exact .inr ⟨p, rest, i, rfl, hd, h⟩
      | error why =>
        rw [step, State.fetch_illegal hc hp hd] at h
        cases h
  · rw [step, State.fetch_malformed hc] at h
    cases h

/-- Every meaning writes the registers and the result only. -/
theorem exec_next_eq {i : Instr} {s t : State} (h : exec i s = .next t) :
    t = { s with regs := t.regs, result := t.result } := by
  cases i <;> cases h <;> rfl

/-! ## Several instances -/

/-- Serving instance `k` serves that one and leaves every other as it was. -/
theorem serveInstance_getElem? (k j : Nat) (fleet : List State) :
    (serveInstance k fleet)[j]? = if j = k then fleet[j]?.map State.serve else fleet[j]? := by
  by_cases h : j = k
  · subst h
    rw [if_pos rfl]
    cases hk : fleet[j]? with
    | none => simp only [serveInstance, hk, Option.map_none]
    | some s =>
      have hlt : j < fleet.length := (List.getElem?_eq_some_iff.mp hk).1
      simp only [serveInstance, hk, List.getElem?_set_self hlt, Option.map_some]
  · rw [if_neg h]
    cases hk : fleet[k]? with
    | none => simp only [serveInstance, hk]
    | some s => simp only [serveInstance, hk, List.getElem?_set_ne (Ne.symm h)]

/-! ## Runs -/

@[simp] theorem run_zero (s : State) : Host.Core.run core 0 s = .next s := rfl

/-- On any machine, a run whose first step answers a next state goes on from it. -/
theorem coreRun_succ_of_next (M : Host.Core) {s t : M.State} (k : Nat) (h : M.step s = .next t) :
    M.run (k + 1) s = M.run k t := by
  simp only [Host.Core.run, h]

/-- On any machine, a run of at least one step that answers a next state took a first step that did. -/
theorem coreRun_succ_next_cases (M : Host.Core) {s u : M.State} {k : Nat} (h : M.run (k + 1) s = .next u) :
    ∃ t, M.step s = .next t ∧ M.run k t = .next u := by
  simp only [Host.Core.run] at h
  cases hs : M.step s with
  | next t =>
    rw [hs] at h
    exact ⟨t, rfl, h⟩
  | fault r =>
    rw [hs] at h
    cases h
  | refused r =>
    rw [hs] at h
    cases h

/-- A run whose first step answers a next state goes on from it. -/
theorem run_succ_of_next {s t : State} (k : Nat) (h : step s = .next t) :
    Host.Core.run core (k + 1) s = Host.Core.run core k t :=
  coreRun_succ_of_next core k h

/-- A run of at least one step that answers a next state took a first step that did. -/
theorem run_succ_next_cases {s u : State} {k : Nat} (h : Host.Core.run core (k + 1) s = .next u) :
    ∃ t, step s = .next t ∧ Host.Core.run core k t = .next u :=
  coreRun_succ_next_cases core h

end Sys2Proof.Machine
end

