-- ==== Sys2Proof/Laws/Update.lean ====
section
/-! SUPPORT. The stages of UPDATE: each decision of Machine/Flags.lean and Machine/Update.lean in each of its cases. -/

namespace Sys2Proof.Machine

/-! ## Flags -/

theorem Regs.mode_idle {r : Regs} (h : r.active = false) : r.mode = .idle := by simp [Regs.mode, h]

theorem Regs.mode_slewing {r : Regs} (h : r.active = true) : r.mode = .slewing := by simp [Regs.mode, h]

theorem Regs.sampling_idle {r : Regs} (c : Config) (ms : Ticks) (h : r.active = false) : r.sampling c ms = .skip := by
  simp [Regs.sampling, Regs.mode_idle h]

theorem Regs.sampling_baseline {r : Regs} (c : Config) (ms : Ticks) (ha : r.active = true) (hb : r.base = false) :
    r.sampling c ms = .baseline := by
  simp [Regs.sampling, Regs.mode_slewing ha, hb]

theorem Regs.sampling_closed {r : Regs} {c : Config} {ms : Ticks} (hb : r.base = true)
    (h : clockSub c.clkW ms r.ltime < c.sampleMs) : r.sampling c ms = .skip := by
  cases ha : r.active
  · exact Regs.sampling_idle c ms ha
  · simp [Regs.sampling, Regs.mode_slewing ha, hb, gateOpen, Nat.not_le.mpr h]

theorem Regs.sampling_open {r : Regs} {c : Config} {ms : Ticks} (ha : r.active = true) (hb : r.base = true)
    (h : c.sampleMs ≤ clockSub c.clkW ms r.ltime) :
    r.sampling c ms = .measurement (clockSub c.clkW ms r.ltime) := by
  simp [Regs.sampling, Regs.mode_slewing ha, hb, gateOpen, h]

/-- What the sampling event can be, and when. -/
theorem Regs.sampling_cases (c : Config) (ms : Ticks) (r : Regs) :
    (r.sampling c ms = .skip ∧ (r.active = false ∨ r.base = true ∧ clockSub c.clkW ms r.ltime < c.sampleMs)) ∨
    (r.sampling c ms = .baseline ∧ r.active = true ∧ r.base = false) ∨
    (r.sampling c ms = .measurement (clockSub c.clkW ms r.ltime) ∧ r.active = true ∧ r.base = true ∧
      c.sampleMs ≤ clockSub c.clkW ms r.ltime) := by
  cases ha : r.active
  · exact .inl ⟨Regs.sampling_idle c ms ha, .inl rfl⟩
  · cases hb : r.base
    · exact .inr (.inl ⟨Regs.sampling_baseline c ms ha hb, rfl, rfl⟩)
    · rcases Nat.lt_or_ge (clockSub c.clkW ms r.ltime) c.sampleMs with h | h
      · exact .inl ⟨Regs.sampling_closed hb h, .inr ⟨rfl, h⟩⟩
      · exact .inr (.inr ⟨Regs.sampling_open ha hb h, rfl, rfl, h⟩)

/-! ## The estimator and the controller -/

theorem Regs.sample_of_skip {r : Regs} {c : Config} {ms : Ticks} (z : Int) (h : r.sampling c ms = .skip) :
    r.sample c ms z = r := by
  simp [Regs.sample, h]

theorem Regs.sample_of_baseline {r : Regs} {c : Config} {ms : Ticks} (z : Int) (h : r.sampling c ms = .baseline) :
    r.sample c ms z = r.takeBaseline z ms := by
  simp [Regs.sample, h]

theorem Regs.sample_of_measurement {r : Regs} {c : Config} {ms dt : Ticks} (z : Int)
    (h : r.sampling c ms = .measurement dt) :
    r.sample c ms z =
      r.recordMeasurement (r.measuredSpeed c z dt) (r.nextDuty c (r.measuredSpeed c z dt)) z ms := by
  simp [Regs.sample, h]

/-- What one UPDATE's estimator and controller can do to the registers. -/
theorem Regs.sample_cases (c : Config) (ms : Ticks) (z : Int) (r : Regs) :
    r.sample c ms z = r ∨ (r.base = false ∧ r.active = true ∧ r.sample c ms z = r.takeBaseline z ms) ∨
    (r.base = true ∧ r.active = true ∧ c.sampleMs ≤ clockSub c.clkW ms r.ltime ∧
      r.sample c ms z =
        r.recordMeasurement (r.measuredSpeed c z (clockSub c.clkW ms r.ltime))
          (r.nextDuty c (r.measuredSpeed c z (clockSub c.clkW ms r.ltime))) z ms) := by
  rcases Regs.sampling_cases c ms r with ⟨h, -⟩ | ⟨h, ha, hb⟩ | ⟨h, ha, hb, hg⟩
  · exact .inl (Regs.sample_of_skip z h)
  · exact .inr (.inl ⟨hb, ha, Regs.sample_of_baseline z h⟩)
  · exact .inr (.inr ⟨hb, ha, hg, Regs.sample_of_measurement z h⟩)

theorem Regs.measuredSpeed_nonneg (c : Config) (z : Int) (dt : Ticks) (r : Regs) : 0 ≤ r.measuredSpeed c z dt :=
  abs_nonneg _

/-! ## The PWM stage -/

/-- The catch-up is by whole periods: what remains is the elapsed time modulo the period (rule R75). -/
theorem caughtUpElapsed_eq_mod (c : Config) (e : Ticks) : caughtUpElapsed c e = e % c.periodUs := by
  unfold caughtUpElapsed
  split
  · exact Nat.sub_eq_of_eq_add (Nat.mod_add_div' e c.periodUs).symm
  · exact (Nat.mod_eq_of_lt (by omega)).symm

theorem caughtUpStart_of_lt {c : Config} {cs e : Ticks} (h : e < c.periodUs) : caughtUpStart c cs e = cs := by
  simp [caughtUpStart, Nat.not_le.mpr h]

theorem caughtUpStart_of_le {c : Config} {cs e : Ticks} (h : c.periodUs ≤ e) :
    caughtUpStart c cs e = (cs + e / c.periodUs * c.periodUs) % 2 ^ c.clkW := by
  simp [caughtUpStart, clockAdd, h]

/-- The PWM stage writes CSTART and EN only. -/
theorem Regs.pwm_eq (c : Config) (us : Ticks) (r : Regs) : ∃ cs b, r.pwm c us = r.recordPwm cs b := ⟨_, _, rfl⟩

/-! ## The command -/

theorem Regs.update_idle {r : Regs} (c : Config) (ms us : Ticks) (z : Int) (h : r.active = false) :
    r.update c ms us z = r := by
  simp [Regs.update, Regs.mode_idle h]

theorem Regs.update_slewing {r : Regs} (c : Config) (ms us : Ticks) (z : Int) (h : r.active = true) :
    r.update c ms us z = (r.sample c ms z).pwm c us := by
  simp [Regs.update, Regs.mode_slewing h]

end Sys2Proof.Machine
end

