-- ==== Sys2Proof/Tests/Slice0.lean ====
section
/-! SUPPORT. The model's own tests: the well-formedness checks, words written out from 30_encoding.md, vectors of
95_test_vectors.md, and for each statement of Certificates/Slice0/Obligations.lean that has hypotheses a theorem that
something meets them. -/

namespace Sys2Proof.Tests

open Sys2Proof.Machine Sys2Proof.Safety

/-! ## Small states -/

/-- The configuration of the example of rule R63: the default with KP = 1/200. -/
def slowGain : Config := { Config.default with kp := 1 / 200 }

/-- The registers of the example of rule R63, before its UPDATE. -/
def slewingRegs : Regs :=
  { Regs.reset with active := true, des := 90, duty := 1, lpos := 10, ltime := 250, base := true, cstart := 240000 }

/-- Slewing under a configuration, with given registers and the operand ports `ms`, `us`, `pos` and `rate`. -/
def stateAt (c : Config) (r : Regs) (ms us : Nat) (pos : Int) (rate : Rat) : State :=
  { State.resetUnder c with regs := r, ports := { quietPorts with msNow := ms, usNow := us, pos := pos, rate := rate } }

/-- The state of the example of rule R63, with its ports presented. -/
def slewing : State := stateAt slowGain slewingRegs 500 500000 70 0

/-- A presentation of a command word with quiet operand ports. -/
def word (w : CommandWord) : Ports := { quietPorts with cmd := w }

/-- A presentation of SETSLEW at a positive rate. -/
def setslewWord : Ports := { quietPorts with cmd := 0x01, rate := 90 }

/-- The reset state with commands issued. -/
def issued (ps : List Ports) : State := { State.reset with pending := ps }

/-- A small configuration: clocks of four bits and a period of three. -/
def tinyConfig : Config := { clkW := 4, sampleMs := 1, periodUs := 3, kp := 0, degMin := 0, degMax := 360 }

/-! ## Well-formedness: an ill-formed term for each check (rule R10; V-REF-3 and V-REF-4), and a well-formed one -/

theorem test_config_default : Config.default.WellFormed := by decide
theorem test_config_no_clock : ¬Config.WellFormed { Config.default with clkW := 0 } := by decide
theorem test_config_no_sample : ¬Config.WellFormed { Config.default with sampleMs := 0 } := by decide
theorem test_config_long_sample : ¬Config.WellFormed { Config.default with sampleMs := 4294967296 } := by decide
theorem test_config_no_period : ¬Config.WellFormed { Config.default with periodUs := 0 } := by decide
theorem test_config_long_period : ¬Config.WellFormed { Config.default with periodUs := 4294967296 } := by decide
theorem test_config_empty_range : ¬Config.WellFormed { Config.default with degMin := 0, degMax := 0 } := by decide
theorem test_ports_out_of_domain : ¬Ports.InDomain Config.default { quietPorts with msNow := 4294967296 } := by decide
theorem test_ports_us_out_of_domain : ¬Ports.InDomain Config.default { quietPorts with usNow := 4294967296 } := by decide
theorem test_ports_in_domain : Ports.InDomain Config.default { quietPorts with usNow := 4294967295 } := by decide
theorem test_malformed_has_no_reset : State.resetWith { Config.default with periodUs := 0 } = none := by decide

/-! ## Decoding: the words of V-DEC-1 to V-DEC-17, written out as RSV1, DSEL, RSV0, OP -/

theorem test_decode_update : decode 0b00000000 = .ok .update := rfl
theorem test_decode_setslew : decode 0b00000001 = .ok .setslew := rfl
theorem test_decode_clrslew : decode 0b00000010 = .ok .clrslew := rfl
theorem test_decode_setdir_stop : decode 0b00000011 = .ok (.setdir .stop) := rfl
theorem test_decode_setdir_fwd : decode 0b00010011 = .ok (.setdir .forward) := rfl
theorem test_decode_setdir_bwd : decode 0b00100011 = .ok (.setdir .backward) := rfl
theorem test_decode_stop : decode 0b00000100 = .ok .stop := rfl
theorem test_decode_getspeed : decode 0b00000101 = .ok .getspeed := rfl
theorem test_decode_init : decode 0b00000110 = .ok .init := rfl
theorem test_decode_no_operation : decode 0b00000111 = .error .noOperation := rfl
theorem test_decode_no_direction : decode 0b00110011 = .error .noDirection := rfl
theorem test_decode_rsv0 : decode 0b00001000 = .error .reservedBits := rfl
theorem test_decode_rsv1 : decode 0b01000000 = .error .reservedBits := rfl
theorem test_decode_stray_on_stop : decode 0b00010100 = .error .strayDirection := rfl
theorem test_decode_stray_on_update : decode 0b00010000 = .error .strayDirection := rfl
theorem test_decode_all_ones : decode 0b11111111 = .error .reservedBits := rfl
theorem test_decode_rsv0_on_setdir : decode 0b00001011 = .error .reservedBits := rfl
theorem test_table_word : decodeTableWord 8 0x13 = some (.setdir .forward) := rfl
theorem test_table_word_illegal : decodeTableWord 8 0x33 = none := rfl

/-- The spellings of program P1, steps 2 and 3. -/
theorem test_spelling_setdir : (Spelling.setdir .forward).text = "SETDIR fwd" := by decide
theorem test_spelling_word : ((Spelling.setdir .forward).ports quietPorts).cmd = 0x13 := rfl
theorem test_spelling_operands :
    (Spelling.setslew 90 (some 1000) (some 1000000)).ports quietPorts =
      { cmd := 0x01, msNow := 1000, usNow := 1000000, pos := 0, rate := 90 } := by decide

/-! ## Arithmetic: V-WRAP, V-GATE-4, V-PWM-4 and V-PWM-11 -/

theorem test_wrap_range_360 :
    [20, -340, 340, 180, -180, 181, -181, 359, -359, 700, 0, 360].map (wrapDelta 360) =
      [20, 20, -20, 180, -180, -179, 179, -1, 1, 340, 0, 0] := by decide
theorem test_wrap_range_7 : [3, 4, -4, -3].map (wrapDelta 7) = [3, -3, 3, -3] := by decide
theorem test_clock_wraps : clockSub 32 104 4294967200 = 200 := by decide
theorem test_clock_steps_back : clockSub 32 99 100 = 4294967295 := by decide
theorem test_catch_up_wraps : caughtUpStart Config.default 4294960000 30000 = 12704 := by decide
theorem test_catch_up_after_step_back :
    caughtUpStart Config.default 100 4294967295 = 4294960100 ∧ caughtUpElapsed Config.default 4294967295 = 7295 := by
  decide
/-- V-CTL-1, V-CTL-5, V-CTL-6 and V-CTL-9. -/
theorem test_proportional_law :
    ({ slewingRegs with duty := 1 } : Regs).nextDuty Config.default 150 = 0 ∧
    ({ slewingRegs with duty := 3 / 10 } : Regs).nextDuty Config.default 94 = 1 / 10 ∧
    ({ slewingRegs with duty := 1 / 2 } : Regs).nextDuty { Config.default with kp := -1 / 20 } 86 = 3 / 10 ∧
    ({ slewingRegs with duty := 1 } : Regs).nextDuty Config.default 0 = 1 := by decide +kernel
/-- V-SPD-2 and V-SPD-3. -/
theorem test_signed_speed : signedSpeed (-20) 250 = -80 ∧ signedSpeed 1 3000 = 1 / 3 := by decide +kernel
/-- V-PWM-5, V-PWM-6, V-PWM-7, V-PWM-8 and V-PWM-10. -/
theorem test_enable_level :
    enableLevel Config.default (1 / 3) 6666 = true ∧ enableLevel Config.default (1 / 3) 6667 = false ∧
    enableLevel Config.default 0 0 = false ∧ enableLevel Config.default 1 19999 = true ∧
    enableLevel Config.default (1 / 2) 10000 = false := by decide +kernel

/-! ## One step of each operation -/

/-- The example of rule R63 (program P2, step 5). -/
theorem test_update_measures :
    exec .update slewing = .next (slewing.withRegs
      { slewingRegs with duty := 1 / 4, lpos := 70, ltime := 500, cstart := 500000, spd := 240, en := true }) := by
  have h : slewingRegs.update slowGain 500 500000 70 =
      { slewingRegs with duty := 1 / 4, lpos := 70, ltime := 500, cstart := 500000, spd := 240, en := true } := by
    decide +kernel
  exact congrArg (fun r => Host.Outcome.next (slewing.withRegs r)) h
/-- Program P3, step 4: both clocks have wrapped. -/
theorem test_update_across_clock_wrap :
    ({ slewingRegs with des := 45, lpos := 100, ltime := 4294967200, cstart := 4294960000 } : Regs).update
        Config.default 104 22704 145 =
      { slewingRegs with des := 45, lpos := 145, ltime := 104, cstart := 12704, spd := 225, duty := 0, en := false } := by
  decide +kernel
/-- V-MODE-1. -/
theorem test_setslew_from_reset :
    exec .setslew (stateAt Config.default Regs.reset 1000 1000000 0 90) =
      .next (stateAt Config.default
        { Regs.reset with active := true, des := 90, ltime := 1000, cstart := 1000000 } 1000 1000000 0 90) := rfl
/-- V-MODE-4. -/
theorem test_setslew_negative :
    exec .setslew (stateAt Config.default { slewingRegs with duty := 1 / 4, en := false } 0 0 0 (-5)) =
      .next (stateAt Config.default { slewingRegs with active := false, des := 0, duty := 1, en := true } 0 0 0 (-5)) := rfl
/-- V-MODE-5. -/
theorem test_clrslew :
    exec .clrslew (stateAt Config.default { slewingRegs with duty := 0, en := false } 0 0 0 0) =
      .next (stateAt Config.default { slewingRegs with active := false, des := 0, duty := 1, en := true } 0 0 0 0) := rfl
/-- V-DIR-2. -/
theorem test_setdir_backward :
    exec (.setdir .backward) (stateAt Config.default { Regs.reset with pa := true } 0 0 0 0) =
      .next (stateAt Config.default { Regs.reset with pb := true } 0 0 0 0) := rfl
/-- V-DIR-4. -/
theorem test_stop_while_slewing :
    exec .stop (stateAt Config.default { slewingRegs with duty := 1 / 2, pa := true } 0 0 0 0) =
      .next (stateAt Config.default { slewingRegs with duty := 1 / 2, pa := false, en := false } 0 0 0 0) := rfl
/-- V-MODE-6. -/
theorem test_init_after_stop :
    exec .init (stateAt Config.default { Regs.reset with en := false } 0 0 0 0) =
      .next (stateAt Config.default Regs.reset 0 0 0 0) := rfl
/-- V-MODE-7. -/
theorem test_getspeed :
    exec .getspeed (stateAt Config.default { slewingRegs with spd := 240 } 0 0 0 0) =
      .next { stateAt Config.default { slewingRegs with spd := 240 } 0 0 0 0 with result := some 240 } := rfl

/-! ## The step and the host -/

/-- V-REF-1. -/
theorem test_refused_word : step (State.reset.withFetchWord 8 0x07) = .refused (.illegalWord .noOperation) := by rfl
theorem test_fetch_word_runs : step (State.reset.withFetchWord 8 0x23) =
    .next { State.reset with regs := { Regs.reset with pb := true }, ports := word 0x23 } := by rfl
theorem test_serve_keeps_mark : ((issued [word 0x07, word 0x02]).serve.serve).refusalMark = true := by rfl

theorem test_refusal_marks_its_instance :
    (serveInstance 0 [issued [word 0x07], issued [word 0x04]]).map (·.refusalMark) = [true, false] := by rfl

/-! ## Witnesses: the hypotheses of the statements are met -/

/-- The clauses of rule R51 at their boundary words, a word outside all of them, and a state that meets the hypotheses. -/
theorem witness_IllegalWordsAreRefused :
    (issued [word 0x33]).cfg.WellFormed ∧ (issued [word 0x33]).pending = word 0x33 :: [] ∧
    step (issued [word 0x07]) = .refused (.illegalWord .noOperation) ∧
    step (issued [word 0x33]) = .refused (.illegalWord .noDirection) ∧
    step (issued [word 0x08]) = .refused (.illegalWord .reservedBits) ∧
    step (issued [word 0x40]) = .refused (.illegalWord .reservedBits) ∧
    step (issued [word 0x10]) = .refused (.illegalWord .strayDirection) ∧
    step (issued [word 0x36]) = .refused (.illegalWord .strayDirection) ∧
    (∃ t, step (issued [word 0x23]) = .next t) :=
  ⟨by decide, rfl, rfl, rfl, rfl, rfl, rfl, rfl, _, rfl⟩

theorem witness_NineLegalWords : decode 0x23 = .ok (.setdir .backward) := rfl

/-- Both clauses: a command is issued, with an operand of its own, and none is. -/
theorem witness_PlacedWordIsRun :
    decode 0x04 = .ok .stop ∧
    ((issued [setslewWord]).cfg.WellFormed ∧ (issued [setslewWord]).pending = setslewWord :: []) ∧
    (State.reset.cfg.WellFormed ∧ State.reset.pending = []) :=
  ⟨rfl, ⟨by decide, rfl⟩, by decide⟩

theorem witness_StepRunsDecodedCommand :
    (issued [word 0x04]).cfg.WellFormed ∧ (issued [word 0x04]).pending = word 0x04 :: [] ∧
      decode (word 0x04).cmd = .ok .stop :=
  ⟨by decide, rfl, rfl⟩

theorem witness_StepWaitsWithoutCommand : State.reset.cfg.WellFormed ∧ State.reset.pending = [] := by decide

theorem witness_CommandsTakeEffectInOrder :
    ∃ t, Host.Core.run core [word 0x13, word 0x04].length { State.reset with pending := [word 0x13, word 0x04] } =
      .next t :=
  ⟨_, rfl⟩

theorem witness_LegalCommandsComplete :
    (issued [word 0x05]).cfg.WellFormed ∧ (issued [word 0x05]).pending = word 0x05 :: [] ∧ Legal (word 0x05) :=
  ⟨by decide, rfl, _, rfl⟩

theorem witness_IllegalWordSetsMarkOnly :
    (issued [word 0x33]).cfg.WellFormed ∧ (issued [word 0x33]).pending = word 0x33 :: [] ∧ ¬Legal (word 0x33) :=
  ⟨by decide, rfl, fun ⟨_, h⟩ => by cases h⟩

theorem witness_RefusalMarkIsKept : (issued [word 0x07]).serve.refusalMark = true := rfl

theorem witness_UnrefusedRunsAreTheLegalOnes :
    (issued [word 0x04]).cfg.WellFormed ∧ Unrefused (issued [word 0x04]) ∧
      ∀ p ∈ (issued [word 0x04]).pending, Legal p :=
  ⟨by decide, rfl, fun p hp => ⟨.stop, by rw [List.mem_singleton.mp hp]; rfl⟩⟩

theorem witness_MalformedConfigurationIsRefused :
    ¬(State.resetUnder { Config.default with degMin := 0, degMax := 0 }).cfg.WellFormed := by decide

theorem witness_ConfigurationIsNeverWritten : ∃ t, step (issued [word 0x06]) = .next t := ⟨_, rfl⟩

theorem witness_InstancesAreIndependent :
    ∃ fleet', stepInstance 1 [State.reset, issued [word 0x04]] = .next fleet' ∧
      [State.reset, issued [word 0x04]][1]? = some (issued [word 0x04]) :=
  ⟨_, rfl, rfl⟩

theorem witness_ResetRegisterValues : slowGain.WellFormed := by decide

theorem witness_ResetMeetsInvariant : State.resetWith Config.default = some State.reset := by rfl

theorem witness_EveryStepKeepsInvariant :
    StateInv { slewing with pending := [word 0x00] } ∧ ∃ t, step { slewing with pending := [word 0x00] } = .next t :=
  ⟨by decide +kernel, _, rfl⟩

theorem witness_DutyStaysInUnitInterval : Config.default.WellFormed := by decide

theorem witness_HiddenResetValuesDoNotMatter : tinyConfig.WellFormed := by decide

theorem witness_SetdirCommutesWithUpdate :
    ∃ t u, exec (.setdir .forward) slewing = .next t ∧ exec .update t = .next u := ⟨_, _, rfl, rfl⟩

theorem witness_StopCutsEnable : State.reset.regs.active = false := rfl

theorem witness_StopDoesNotLeaveSlewing :
    slewing.regs.active = true ∧ ∃ t u v, exec .stop slewing = .next t ∧ exec .update t = .next u ∧
      exec .update slewing = .next v :=
  ⟨rfl, _, _, _, rfl, rfl, rfl⟩

theorem witness_UpdateInIdleChangesNothing : (stateAt Config.default Regs.reset 500 500 7 0).regs.active = false := rfl

theorem witness_UpdateTakesBaseline :
    (stateAt Config.default { slewingRegs with base := false } 250 240000 77 0).regs.active = true ∧
      (stateAt Config.default { slewingRegs with base := false } 250 240000 77 0).regs.base = false :=
  ⟨rfl, rfl⟩

/-- One millisecond short of the sampling interval (R80(a)). -/
theorem witness_UpdateWithGateClosed :
    slewing.regs.active = true ∧ slewing.regs.base = true ∧ ElapsedIs slowGain 250 449 199 ∧ 199 < slowGain.sampleMs := by
  decide

/-- The sampling interval exactly (R80(a)), and each clause of the wrap correction at its boundary (R80(c)). -/
theorem witness_UpdateMeasures :
    slewing.regs.active = true ∧ slewing.regs.base = true ∧ ElapsedIs slowGain 250 450 200 ∧ slowGain.sampleMs ≤ 200 ∧
      CorrectedIs 360 180 180 ∧ CorrectedIs 360 (-180) (-180) ∧ CorrectedIs 360 181 (-179) ∧ CorrectedIs 360 (-181) 179 := by
  decide

theorem witness_UpdateFrame : ∃ t, exec .update slewing = .next t := ⟨_, rfl⟩

theorem witness_CycleStartWithinOnePeriod :
    slewing.cfg.WellFormed ∧ slewing.regs.active = true ∧ ∃ t, exec .update slewing = .next t ∧
      ElapsedIs slewing.cfg t.regs.cstart slewing.ports.usNow 0 :=
  ⟨by decide, rfl, _, rfl, by decide +kernel⟩

theorem witness_EnableIsOneComparison :
    StateInv slewing ∧ slewing.regs.active = true ∧ ∃ t, exec .update slewing = .next t ∧
      ElapsedIs slewing.cfg t.regs.cstart slewing.ports.usNow 0 :=
  ⟨by decide +kernel, rfl, _, rfl, by decide +kernel⟩

/-- Slewing under the small configuration, one period and two microseconds into the schedule that starts at 0, with one
command issued. -/
def midSchedule (p : Ports) : State :=
  { stateAt tinyConfig { slewingRegs with cstart := 3 } 0 0 0 0 with pending := [p] }

/-- Both clauses, the UPDATE at the last time the bound allows: 18 is less than 3 + 16. -/
theorem witness_EveryStepKeepsSchedule :
    (midSchedule (word 0x04)).cfg.WellFormed ∧ (midSchedule (word 0x04)).regs.active = true ∧
    AtPoint tinyConfig 0 5 1 (midSchedule (word 0x04)).regs.cstart ∧ 5 < 0 + (1 + 1) * tinyConfig.periodUs ∧
    (KeepsLoop (word 0x04) ∧ ¬Carries (word 0x04) .update ∧ ∃ t, step (midSchedule (word 0x04)) = .next t) ∧
    (KeepsLoop { word 0x00 with usNow := 18 } ∧ Carries { word 0x00 with usNow := 18 } .update ∧ 5 ≤ 18 ∧
      18 < 0 + 1 * tinyConfig.periodUs + tinyConfig.clockSpan ∧
      ∃ t, step (midSchedule { word 0x00 with usNow := 18 }) = .next t ∧ t.regs.cstart = 2) :=
  ⟨by decide, rfl, by decide, by decide,
    ⟨⟨.stop, rfl, by decide, by decide⟩, (fun h => by cases h), _, rfl⟩,
    ⟨⟨.update, rfl, by decide, by decide⟩, rfl, by decide, by decide, _, rfl, by decide +kernel⟩⟩

/-- A gap beyond the clock span, 21 with a span of 16. -/
theorem witness_CycleStartsStayOnSchedulePoints :
    ∃ bound s t p ps, s.cfg.WellFormed ∧ s.pending = p :: ps ∧ Carries p .setslew ∧ 0 < p.rate ∧
      (∀ q ∈ ps, KeepsLoop q) ∧ SpacedBy bound p.usNow (updateTimes ps) ∧
      Host.Core.run core (ps.length + 1) s = .next t :=
  ⟨21, { State.resetUnder tinyConfig with pending := [setslewWord, { word 0x00 with usNow := 21 }] },
    _, setslewWord, [{ word 0x00 with usNow := 21 }], by decide, rfl, rfl, by decide,
    fun q hq => ⟨.update, by rw [List.mem_singleton.mp hq]; rfl, by decide, by decide⟩,
    ⟨by decide, by decide, trivial⟩, rfl⟩

/-- A run on the schedule whose last gap is the largest the bound allows: 2 + 13 with a clock span of 16. -/
theorem witness_DriftFreeSchedule :
    ∃ s t p ps, s.cfg.WellFormed ∧ s.pending = p :: ps ∧ Carries p .setslew ∧ 0 < p.rate ∧ (∀ q ∈ ps, KeepsLoop q) ∧
      SpacedBy (s.cfg.clockSpan - s.cfg.periodUs) p.usNow (updateTimes ps) ∧
      Host.Core.run core (ps.length + 1) s = .next t :=
  ⟨{ State.resetUnder tinyConfig with
      pending := [setslewWord, { word 0x00 with usNow := 2 }, { word 0x00 with usNow := 15 }] },
    _, setslewWord, [{ word 0x00 with usNow := 2 }, { word 0x00 with usNow := 15 }], by decide, rfl, rfl, by decide,
    fun q hq => ⟨.update, by
      rcases List.mem_cons.mp hq with h | h
      · rw [h]; rfl
      · rw [List.mem_singleton.mp h]; rfl, by decide, by decide⟩,
    ⟨by decide, by decide, by decide, by decide, trivial⟩, rfl⟩

/-- A run inside the bound of R78(b) as it is written: the gap 15 is less than the clock span 16. -/
theorem witness_DriftFreeUnderClockGapsAlone :
    ∃ s t p ps, s.cfg.WellFormed ∧ s.pending = p :: ps ∧ Carries p .setslew ∧ 0 < p.rate ∧ (∀ q ∈ ps, KeepsLoop q) ∧
      SpacedBy (s.cfg.clockSpan - 1) p.usNow (updateTimes ps) ∧ Host.Core.run core (ps.length + 1) s = .next t :=
  ⟨{ State.resetUnder tinyConfig with
      pending := [setslewWord, { word 0x00 with usNow := 2 }, { word 0x00 with usNow := 17 }] },
    _, setslewWord, [{ word 0x00 with usNow := 2 }, { word 0x00 with usNow := 17 }], by decide, rfl, rfl, by decide,
    fun q hq => ⟨.update, by
      rcases List.mem_cons.mp hq with h | h
      · rw [h]; rfl
      · rw [List.mem_singleton.mp h]; rfl, by decide, by decide⟩,
    ⟨by decide, by decide, by decide, by decide, trivial⟩, rfl⟩

theorem witness_RepeatedUpdateChangesNothing :
    slewing.cfg.WellFormed ∧ ∃ t, exec .update slewing = .next t := ⟨by decide, _, rfl⟩

/-- The source's example of 90_conflicts.md and L1-3: from 350 to 10 degrees is a motion of 20. -/
theorem witness_WrapCorrectionRecoversMotion :
    ∃ s t, s.cfg.WellFormed ∧ s.regs.active = true ∧ s.regs.base = true ∧
      ElapsedIs s.cfg s.regs.ltime s.ports.msNow 250 ∧ s.cfg.sampleMs ≤ 250 ∧
      s.cfg.degMin ≤ s.regs.lpos ∧ s.regs.lpos ≤ s.cfg.degMax ∧ s.cfg.degMin ≤ s.ports.pos ∧
      s.ports.pos ≤ s.cfg.degMax ∧ s.ports.pos = s.regs.lpos + 20 + (-1) * (s.cfg.degMax - s.cfg.degMin) ∧
      2 * |(20 : Int)| < s.cfg.degMax - s.cfg.degMin ∧ exec .update s = .next t :=
  ⟨stateAt slowGain { slewingRegs with lpos := 350 } 500 500000 10 0, _, by decide, rfl, rfl, by decide, by decide,
    by decide, by decide, by decide, by decide, by decide, by decide, rfl⟩

/-- Each clause at a boundary: half the range, just beyond it on both sides, one and a half ranges, just beyond that. -/
theorem witness_WrapCorrectionIsAppliedOnce :
    (1 : Int) ≤ 360 ∧ 2 * |(180 : Int)| ≤ 360 ∧ 360 < 2 * |(181 : Int)| ∧ 360 < 2 * |(-181 : Int)| ∧
      2 * |(540 : Int)| ≤ 3 * 360 ∧ 3 * 360 < 2 * |(541 : Int)| := by decide

/-- V-CTL-4: 18 degrees in 200 milliseconds at the desired speed 90. -/
theorem witness_ZeroErrorKeepsDuty :
    ∃ s t, 0 ≤ s.regs.duty ∧ s.regs.duty ≤ 1 ∧ exec .update s = .next t ∧ t.regs.spd = s.regs.des :=
  ⟨stateAt Config.default { slewingRegs with duty := 1 / 2 } 450 240000 28 0, _, by decide +kernel, by decide +kernel,
    rfl, by decide +kernel⟩

theorem witness_ZeroGainKeepsDuty :
    ∃ s t, 0 ≤ s.regs.duty ∧ s.regs.duty ≤ 1 ∧ s.cfg.kp = 0 ∧ exec .update s = .next t :=
  ⟨stateAt { Config.default with kp := 0 } slewingRegs 450 240000 28 0, _, by decide, by decide, rfl, rfl⟩

/-- Both clauses: a duty of 1 under a speed that is too low, a duty of 0 under a speed that is too high. -/
theorem witness_DutyHoldsAtTheClamp :
    (∃ s t, 0 ≤ s.cfg.kp ∧ exec .update s = .next t ∧ s.regs.duty = 1 ∧ t.regs.spd ≤ s.regs.des) ∧
    (∃ s t, 0 ≤ s.cfg.kp ∧ exec .update s = .next t ∧ s.regs.duty = 0 ∧ s.regs.des ≤ t.regs.spd) :=
  ⟨⟨stateAt Config.default slewingRegs 450 240000 10 0, _, by decide, rfl, rfl, by decide +kernel⟩,
    ⟨stateAt Config.default { slewingRegs with duty := 0 } 450 240000 60 0, _, by decide, rfl, rfl, by decide +kernel⟩⟩

theorem witness_DutyMovesOnlyAtMeasurement :
    ∃ t, exec .update slewing = .next t ∧ (t.regs.duty ≠ slewing.regs.duty ∨ t.regs.spd ≠ slewing.regs.spd) ∧
      ElapsedIs slewing.cfg slewing.regs.ltime slewing.ports.msNow 250 :=
  ⟨_, rfl, by decide +kernel, by decide⟩

/-- Program P1, steps 3 and 4, with a SETDIR between them. -/
theorem witness_ColdStartKeepsDuty :
    ∃ (s : State) (p q : Ports) (mid rest : List Ports), s.cfg.WellFormed ∧ s.pending = p :: mid ++ q :: rest ∧
      Carries p .setslew ∧ 0 < p.rate ∧ (∀ m ∈ mid, LeavesLoopAlone m) ∧ Carries q .update :=
  ⟨issued [setslewWord, word 0x13, { word 0x00 with pos := 10 }], setslewWord, { word 0x00 with pos := 10 }, [word 0x13],
    [], by decide, rfl, rfl, by decide,
    fun m hm => ⟨.setdir .forward, by rw [List.mem_singleton.mp hm]; rfl, by decide, by decide, by decide⟩, rfl⟩

theorem witness_SetslewEntersSlewing : 0 < (stateAt Config.default Regs.reset 1000 1000000 0 90).ports.rate := by decide

/-- Both ends of the non-positive case: zero and a negative rate. -/
theorem witness_SetslewNonPositiveIsClrslew :
    (stateAt Config.default slewingRegs 0 0 0 0).ports.rate ≤ 0 ∧
      (stateAt Config.default slewingRegs 0 0 0 (-5)).ports.rate ≤ 0 := by decide

theorem witness_InitDrivesDefaultOutputs :
    slewing.regs.active = true ∧ ∃ t u v, exec .init slewing = .next t ∧ exec .update t = .next u ∧
      exec .update slewing = .next v :=
  ⟨rfl, _, _, _, rfl, rfl, rfl⟩

theorem witness_InitAfterResetChangesNothing : State.resetWith Config.default = some State.reset := by rfl

theorem witness_GetspeedReturnsSpeed : State.resetWith Config.default = some State.reset := by rfl

/-- Both clauses: STOP moves EN, SETDIR moves PA. -/
theorem witness_OutputsMoveOnlyAtListedCommands :
    (∃ t, step (issued [word 0x04]) = .next t ∧ t.regs.en ≠ (issued [word 0x04]).regs.en) ∧
    (∃ t, step (issued [word 0x13]) = .next t ∧ t.regs.pa ≠ (issued [word 0x13]).regs.pa) :=
  ⟨⟨_, rfl, by decide⟩, ⟨_, rfl, by decide⟩⟩

/-- The eight clauses: a measurement moves SPD, LPOS and DUTY, SETSLEW moves ACTIVE, DES, BASE and the timestamps. -/
theorem witness_LoopRegistersMoveOnlyAtListedCommands :
    (∃ t, step { slewing with pending := [{ word 0x00 with msNow := 500, pos := 70 }] } = .next t ∧
      t.regs.spd ≠ slewing.regs.spd ∧ t.regs.lpos ≠ slewing.regs.lpos ∧ t.regs.duty ≠ slewing.regs.duty) ∧
    (∃ t, step { slewing with pending := [setslewWord] } = .next t ∧ t.regs.base ≠ slewing.regs.base ∧
      t.regs.ltime ≠ slewing.regs.ltime ∧ t.regs.cstart ≠ slewing.regs.cstart) ∧
    (∃ t, step (issued [setslewWord]) = .next t ∧ t.regs.active ≠ (issued [setslewWord]).regs.active ∧
      t.regs.des ≠ (issued [setslewWord]).regs.des) :=
  ⟨⟨_, rfl, by decide +kernel, by decide +kernel, by decide +kernel⟩,
    ⟨_, rfl, by decide +kernel, by decide +kernel, by decide +kernel⟩, ⟨_, rfl, by decide +kernel, by decide +kernel⟩⟩

/-- V-MODE-9 and rule R44: an UPDATE in Idle samples CMD only. -/
theorem witness_UnsampledPortsHaveNoEffect :
    Ports.AgreeOn (portsRead .update State.reset) State.reset.ports { quietPorts with msNow := 7, usNow := 8, pos := 9 } ∧
      ∃ t, exec .update State.reset = .next t :=
  ⟨fun n hn => by rw [List.mem_singleton.mp hn]; rfl, _, rfl⟩

/-- V-DIR-6: STOP in Idle. -/
theorem witness_IdleWithEnableLowOnlyAfterStop :
    Config.default.WellFormed ∧ ∃ t,
      Host.Core.run core [word 0x04, word 0x00].length { State.resetUnder Config.default with pending := [word 0x04, word 0x00] } =
        .next t ∧ t.regs.active = false ∧ t.regs.en = false :=
  ⟨by decide, _, rfl, rfl, rfl⟩

theorem witness_ElapsedTimeAliases : 0 < 1 ∧ 1 ≤ 100 ∧ 100 < 2 ^ 32 := by decide

theorem witness_ClockArithmetic : 104 < 2 ^ 32 ∧ 4294967200 < 2 ^ 32 := by decide

end Sys2Proof.Tests
end

