-- ==== Sys2Proof/Proofs/Scope.lean ====
section
/-! SUPPORT. The scope of the model: which configurations have a reset state and runs (rules R10 and R89). -/

namespace Sys2Proof

/-- Rule R10 as the spec groups it: the width of the clocks, one range for each of the two intervals, the degree range. -/
theorem Config.wellFormed_iff (c : Config) :
    c.WellFormed ↔ 1 ≤ c.clkW ∧ (1 ≤ c.sampleMs ∧ c.sampleMs < 2 ^ c.clkW) ∧
      (1 ≤ c.periodUs ∧ c.periodUs < 2 ^ c.clkW) ∧ c.degMin < c.degMax := by
  simp only [Config.WellFormed, Config.clockSpan, and_assoc]

end Sys2Proof

namespace Sys2Proof.Machine

theorem State.resetWith_of_wellFormed {c : Config} (h : c.WellFormed) :
    State.resetWith c = some (State.resetUnder c) := if_pos h

theorem State.resetWith_of_malformed {c : Config} (h : ¬c.WellFormed) : State.resetWith c = none := if_neg h

theorem State.resetWith_eq_none_iff (c : Config) : State.resetWith c = none ↔ ¬c.WellFormed := by
  refine ⟨fun hnone hc => ?_, State.resetWith_of_malformed⟩
  rw [State.resetWith_of_wellFormed hc] at hnone
  cases hnone

/-- The configuration is looked at before the commands, so an ill-formed one is refused whatever has been issued. -/
theorem step_of_malformed {s : State} (h : ¬s.cfg.WellFormed) : step s = .refused .malformedConfig := by
  simp only [step, State.fetch_malformed h]

/-- Settles O14: the reset state asks for rule R10, and so does the taking of a command. -/
theorem malformedConfigurationIsRefused : Obligations.MalformedConfigurationIsRefused := by
  refine ⟨fun c => ?_, fun s => step_of_malformed⟩
  rw [State.resetWith_eq_none_iff, Config.wellFormed_iff]

end Sys2Proof.Machine
end

