-- ==== Sys2Proof/Proofs/Encoding.lean ====
section
/-! SUPPORT. The command words of rules R46 to R51: a word is its four fields, and a legal word is the one its operation
is encoded as. -/

namespace Sys2Proof

/-- The four fields of rule R46, side by side, are the whole word. -/
theorem fields_append (w : CommandWord) : ((rsv1Field w ++ dselField w) ++ rsv0Field w) ++ opField w = w := by
  have hdsel : rsv1Field w ++ dselField w = w.extractLsb' 4 4 :=
    BitVec.extractLsb'_append_extractLsb'_eq_extractLsb' rfl
  have hrsv0 : w.extractLsb' 4 4 ++ rsv0Field w = w.extractLsb' 3 5 :=
    BitVec.extractLsb'_append_extractLsb'_eq_extractLsb' rfl
  have hop : w.extractLsb' 3 5 ++ opField w = w.extractLsb' 0 8 :=
    BitVec.extractLsb'_append_extractLsb'_eq_extractLsb' rfl
  rw [hdsel, hrsv0, hop, BitVec.extractLsb'_eq_self]

/-- A DSEL code names the one direction it is the code of (rule R48). -/
theorem code_of_decodeDirection {dsel : BitVec 2} {d : Direction} (h : decodeDirection dsel = some d) :
    dsel = d.code := by
  unfold decodeDirection at h
  split_ifs at h with hstop hforward hbackward <;> cases h
  · exact hstop
  · exact hforward
  · exact hbackward

/-- Without a direction, OP must be the code of the operation `j` that it selects, and DSEL is 00 as `j` has it. -/
theorem fields_of_withoutDirection {op : BitVec 3} {dsel : BitVec 2} {i j : Instr}
    (h : withoutDirection dsel j = .ok i) (hop : op = j.opcode) (hj : j.dsel = 0b00#2) :
    op = i.opcode ∧ dsel = i.dsel := by
  unfold withoutDirection at h
  split_ifs at h with hdsel
  cases h
  exact ⟨hop, hdsel.trans hj.symm⟩

theorem fields_of_decodeSetdir {op : BitVec 3} {dsel : BitVec 2} {i : Instr}
    (h : decodeSetdir dsel = .ok i) (hop : op = 0b011#3) : op = i.opcode ∧ dsel = i.dsel := by
  unfold decodeSetdir at h
  cases hd : decodeDirection dsel with
  | some d =>
    rw [hd] at h
    cases h
    exact ⟨hop, code_of_decodeDirection hd⟩
  | none =>
    rw [hd] at h
    cases h

/-- OP and DSEL select an operation only where they are its own codes (rules R47 and R50). -/
theorem fields_of_decodeOp {op : BitVec 3} {dsel : BitVec 2} {i : Instr} (h : decodeOp op dsel = .ok i) :
    op = i.opcode ∧ dsel = i.dsel := by
  unfold decodeOp at h
  split_ifs at h with hupdate hsetslew hclrslew hsetdir hstop hgetspeed hinit
  · exact fields_of_withoutDirection h hupdate rfl
  · exact fields_of_withoutDirection h hsetslew rfl
  · exact fields_of_withoutDirection h hclrslew rfl
  · exact fields_of_decodeSetdir h hsetdir
  · exact fields_of_withoutDirection h hstop rfl
  · exact fields_of_withoutDirection h hgetspeed rfl
  · exact fields_of_withoutDirection h hinit rfl

/-- A word that decodes to an operation is the word of that operation: no operation has two (rules R50 and R53). -/
theorem eq_encode_of_decode {w : CommandWord} {i : Instr} (h : decode w = .ok i) : w = encode i := by
  unfold decode at h
  split_ifs at h with hrsv
  obtain ⟨hrsv0, hrsv1⟩ := hrsv
  obtain ⟨hop, hdsel⟩ := fields_of_decodeOp h
  calc w = ((rsv1Field w ++ dselField w) ++ rsv0Field w) ++ opField w := (fields_append w).symm
    _ = encode i := by rw [hrsv0, hrsv1, hop, hdsel, encode]

theorem decode_encode (i : Instr) : decode (encode i) = .ok i := by
  cases i with
  | update => exact Laws.EncodeRoundTrip.update.1
  | setslew => exact Laws.EncodeRoundTrip.setslew.1
  | clrslew => exact Laws.EncodeRoundTrip.clrslew.1
  | setdir d => exact (Laws.EncodeRoundTrip.setdir d).1
  | stop => exact Laws.EncodeRoundTrip.stop.1
  | getspeed => exact Laws.EncodeRoundTrip.getspeed.1
  | init => exact Laws.EncodeRoundTrip.init.1

/-- The nine words of rule R50 are the words of the operations. -/
theorem encode_mem_opcodeMap (i : Instr) :
    encode i ∈ ([0x00, 0x01, 0x02, 0x03, 0x13, 0x23, 0x04, 0x05, 0x06] : List CommandWord) := by
  cases i with
  | setdir d => cases d <;> decide
  | _ => decide

/-- Settles O2: a legal word is the word of its operation, and those words are the nine. -/
theorem nineLegalWords : Obligations.NineLegalWords := by
  refine ⟨⟨decode_encode .update, decode_encode .setslew, decode_encode .clrslew, decode_encode (.setdir .stop),
    decode_encode (.setdir .forward), decode_encode (.setdir .backward), decode_encode .stop, decode_encode .getspeed,
    decode_encode .init⟩, fun w i h => ?_⟩
  rw [eq_encode_of_decode h]
  exact encode_mem_opcodeMap i

end Sys2Proof

namespace Sys2Proof.Machine

/-- SETDIR writes the two direction pins, as its direction has them (rule R60). -/
theorem exec_setdir (d : Direction) (s : State) :
    exec (.setdir d) s = .next { s with regs := { s.regs with pa := Direction.pa d, pb := Direction.pb d } } := rfl

/-- The DSEL code 11 names no direction (rule R51(b)). -/
theorem decode_setdir_out_of_enum : decode 0x33 = .error .noDirection := rfl

/-- Settles O23: SETDIR's words are its encodings, and its effect is the pattern of its direction on the pins. -/
theorem setdirDrivesPins : Obligations.SetdirDrivesPins := by
  refine ⟨⟨decode_encode (.setdir .stop), decode_encode (.setdir .forward), decode_encode (.setdir .backward),
    fun i h => ?_⟩, fun s => ⟨exec_setdir .stop s, exec_setdir .forward s, exec_setdir .backward s⟩⟩
  rw [decode_setdir_out_of_enum] at h
  cases h

end Sys2Proof.Machine
end

