-- ==== Sys2Proof/Proofs/Sampling.lean ====
section
/-! SUPPORT. The sampling table of rule R44: what a command does depends on the ports it samples only (rule R54). -/

namespace Sys2Proof.Machine

section Agreement

variable {s : State} {p : Ports}

/-! ## What the ports show -/

theorem State.msNow_of_port_eq (h : s.ports.msNow = p.msNow) : State.msNow { s with ports := p } = s.msNow := by
  simp only [State.msNow, h]

theorem State.usNow_of_port_eq (h : s.ports.usNow = p.usNow) : State.usNow { s with ports := p } = s.usNow := by
  simp only [State.usNow, h]

/-! ## UPDATE -/

theorem updatePorts_idle (h : s.regs.active = false) : updatePorts s = [.cmd] := by
  simp only [updatePorts, Regs.mode_idle h]

theorem updatePorts_slewing (h : s.regs.active = true) :
    updatePorts s = [.cmd, .msNow, .usNow] ++ posPort s.sampling := by
  simp only [updatePorts, Regs.mode_slewing h]

/-- The estimator and the controller look at the bearing at a sampling event only (rules R65 to R67). -/
theorem Regs.sample_of_pos_eq {c : Config} {ms : Ticks} {z z' : Int} {r : Regs}
    (h : .pos ∈ posPort (r.sampling c ms) → z = z') : r.sample c ms z = r.sample c ms z' := by
  cases hs : r.sampling c ms with
  | skip => rw [Regs.sample_of_skip z hs, Regs.sample_of_skip z' hs]
  | baseline => rw [h (by simp [hs, posPort])]
  | measurement dt => rw [h (by simp [hs, posPort])]

/-- UPDATE leaves the same registers behind two presentations that agree on the ports it samples (rule R44). -/
theorem Regs.update_of_agreeOn (h : Ports.AgreeOn (updatePorts s) s.ports p) :
    s.regs.update s.cfg (State.msNow { s with ports := p }) (State.usNow { s with ports := p }) p.pos =
      s.regs.update s.cfg s.msNow s.usNow s.pos := by
  cases ha : s.regs.active with
  | false => rw [Regs.update_idle _ _ _ _ ha, Regs.update_idle _ _ _ _ ha]
  | true =>
    rw [updatePorts_slewing ha] at h
    have hsample : s.regs.sample s.cfg s.msNow p.pos = s.regs.sample s.cfg s.msNow s.pos :=
      Regs.sample_of_pos_eq fun hpos => (h .pos (List.mem_append_right _ hpos)).symm
    rw [State.msNow_of_port_eq (h .msNow (by simp)), State.usNow_of_port_eq (h .usNow (by simp)),
      Regs.update_slewing _ _ _ _ ha, Regs.update_slewing _ _ _ _ ha, hsample]

/-! ## SETSLEW -/

theorem setslewPorts_of_pos (h : 0 < s.rate) : setslewPorts s = [.cmd, .rate, .msNow, .usNow] := if_pos h

theorem setslewPorts_of_nonpos (h : s.rate ≤ 0) : setslewPorts s = [.cmd, .rate] := if_neg (not_lt.mpr h)

/-- SETSLEW samples the rate whatever the rate is. -/
theorem rate_mem_setslewPorts (s : State) : .rate ∈ setslewPorts s := by
  rcases lt_or_ge 0 s.rate with hr | hr
  · simp [setslewPorts_of_pos hr]
  · simp [setslewPorts_of_nonpos hr]

/-- SETSLEW leaves the same registers behind two presentations that agree on the ports it samples (rule R44). -/
theorem Regs.setslew_of_agreeOn (h : Ports.AgreeOn (setslewPorts s) s.ports p) :
    s.regs.setslew p.rate (State.msNow { s with ports := p }) (State.usNow { s with ports := p }) =
      s.regs.setslew s.rate s.msNow s.usNow := by
  have hrate : p.rate = s.rate := (h .rate (rate_mem_setslewPorts s)).symm
  rw [hrate]
  rcases lt_or_ge 0 s.rate with hr | hr
  · rw [setslewPorts_of_pos hr] at h
    rw [State.msNow_of_port_eq (h .msNow (by simp)), State.usNow_of_port_eq (h .usNow (by simp))]
  · rw [Regs.setslew_of_nonpos _ _ _ hr, Regs.setslew_of_nonpos _ _ _ hr]

/-! ## Every operation -/

theorem exec_update_of_agreeOn (h : Ports.AgreeOn (updatePorts s) s.ports p) :
    exec .update { s with ports := p } =
      .next { s.withRegs (s.regs.update s.cfg s.msNow s.usNow s.pos) with ports := p } := by
  rw [← Regs.update_of_agreeOn h]
  rfl

theorem exec_setslew_of_agreeOn (h : Ports.AgreeOn (setslewPorts s) s.ports p) :
    exec .setslew { s with ports := p } =
      .next { s.withRegs (s.regs.setslew s.rate s.msNow s.usNow) with ports := p } := by
  rw [← Regs.setslew_of_agreeOn h]
  rfl

end Agreement

/-- Settles O55: UPDATE and SETSLEW use what they sample only, and no other operation looks at an operand port. -/
theorem unsampledPortsHaveNoEffect : Obligations.UnsampledPortsHaveNoEffect := by
  intro i s t p hagree hexec
  cases i with
  | update => cases hexec; exact exec_update_of_agreeOn hagree
  | setslew => cases hexec; exact exec_setslew_of_agreeOn hagree
  | clrslew => cases hexec; rfl
  | setdir d => cases hexec; rfl
  | stop => cases hexec; rfl
  | getspeed => cases hexec; rfl
  | init => cases hexec; rfl

end Sys2Proof.Machine
end

