-- ==== Sys2Proof/Proofs/Stop.lean ====
section
/-! SUPPORT. STOP (rule R61): the pins and EN are cut, and neither a second STOP nor an UPDATE in Idle undoes it. -/

namespace Sys2Proof.Machine

/-- STOP writes the two direction pins and EN, all low (rule R61). -/
theorem exec_stop (s : State) :
    exec .stop s = .next { s with regs := { s.regs with pa := false, pb := false, en := false } } := rfl

/-- UPDATE leaves the whole state as it is while the loop is off (rule R64). -/
theorem exec_update_of_idle {s : State} (h : s.regs.active = false) : exec .update s = .next s := by
  have hexec : exec .update s = .next (s.withRegs (s.regs.update s.cfg s.msNow s.usNow s.pos)) := rfl
  rw [hexec, Regs.update_idle _ _ _ _ h, State.withRegs_self]

/-- Settles O24: STOP keeps ACTIVE, so an UPDATE behind it in Idle finds the loop still off. -/
theorem stopCutsEnable : Obligations.StopCutsEnable := by
  refine ⟨decode_encode .stop, fun s => ⟨_, exec_stop s, rfl, ?repeated, fun hidle => ?idle⟩⟩
  case repeated => exact exec_stop _
  case idle => exact exec_update_of_idle hidle

end Sys2Proof.Machine
end

/-! SUPPORT. UPDATE (rule R63): the model's stages meet the relational readings of rules R66, R68 and R74 to R76, and a
measurement is the estimator, the controller and the PWM stage in that order (rule R79). -/

namespace Sys2Proof.Machine

open Sys2Proof.Safety

/-! ## The stages as relations -/

/-- The clock difference on a port is the one elapsed time (rules R66 and R74). -/
theorem clockSub_clockPort_eq_of_elapsedIs {c : Config} {since now e : Nat} (h : ElapsedIs c since now e) :
    clockSub c.clkW (clockPort c.clkW now) since = e := by
  obtain ⟨hlt, hmod⟩ := h
  exact clockSub_unique hlt (hmod.trans (Nat.mod_mod _ _).symm)

theorem elapsedIs_clockSub_clockPort (c : Config) (since now : Nat) :
    ElapsedIs c since now (clockSub c.clkW (clockPort c.clkW now) since) :=
  ⟨clockSub_lt _ _ _, (add_clockSub_mod _ _ _).trans (Nat.mod_mod _ _)⟩

/-- The wrap correction gives the corrected delta (rule R68). -/
theorem wrapDelta_eq_of_correctedIs {range raw d : Int} (h : CorrectedIs range raw d) : wrapDelta range raw = d := by
  rcases h with ⟨hle, rfl⟩ | ⟨hlt, hpos, rfl⟩ | ⟨hlt, hneg, rfl⟩
  · rw [wrapDelta, if_neg hle.not_gt]
  · rw [wrapDelta, if_pos hlt, if_pos hpos]
  · rw [wrapDelta, if_pos hlt, if_neg hneg.not_gt]

theorem enableLevel_zero (c : Config) (e : Ticks) : enableLevel c 0 e = false := if_pos rfl

theorem enableLevel_of_one_le {c : Config} {duty : Rat} (e : Ticks) (h : 1 ≤ duty) : enableLevel c duty e = true := by
  rw [enableLevel, if_neg (zero_lt_one.trans_le h).ne', if_pos h]

/-- Between the two forced levels EN is the comparison with the exact on-time (rule R76). -/
theorem enableLevel_eq_true_iff {c : Config} {duty : Rat} (e : Ticks) (h0 : duty ≠ 0) (h1 : duty < 1) :
    enableLevel c duty e = true ↔ (e : Rat) < duty * (c.periodUs : Rat) := by
  rw [enableLevel, if_neg h0, if_neg h1.not_ge, decide_eq_true_iff]

/-- The PWM stage leaves in CSTART and EN what rules R74 to R76 say. -/
theorem Regs.pwmLeaves_pwm (c : Config) (us : Ticks) (r : Regs) :
    PwmLeaves c us r.cstart r.duty (r.pwm c (clockPort c.clkW us)).cstart (r.pwm c (clockPort c.clkW us)).en := by
  refine ⟨r.cycleElapsed c (clockPort c.clkW us), elapsedIs_clockSub_clockPort c r.cstart us,
    caughtUpStart_of_le, caughtUpStart_of_lt, fun h0 => ?low, enableLevel_of_one_le _, fun h0 h1 => ?compared⟩
  case low => rw [Regs.pwm, Regs.recordPwm_en, h0, enableLevel_zero]
  case compared => rw [Regs.pwm, Regs.recordPwm_en, enableLevel_eq_true_iff _ h0 h1, caughtUpElapsed_eq_mod]

/-! ## The command -/

/-- UPDATE in Slewing runs the estimator and the controller, then the PWM stage (rule R79). -/
theorem exec_update_of_slewing {s : State} (h : s.regs.active = true) :
    exec .update s = .next (s.withRegs ((s.regs.sample s.cfg s.msNow s.pos).pwm s.cfg s.usNow)) := by
  have hexec : exec .update s = .next (s.withRegs (s.regs.update s.cfg s.msNow s.usNow s.pos)) := rfl
  rw [hexec, Regs.update_slewing _ _ _ _ h]

/-- Settles O27: it is the rule of UPDATE in Idle. -/
theorem updateInIdleChangesNothing : Obligations.UpdateInIdleChangesNothing := fun _ => exec_update_of_idle

/-- The magnitude a measurement stores, of the corrected delta `d` (rules R67 to R70). -/
theorem Regs.measuredSpeed_of_correctedIs {c : Config} {r : Regs} {z d : Int} (dt : Ticks)
    (h : CorrectedIs (c.degMax - c.degMin) (z - r.lpos) d) :
    r.measuredSpeed c z dt = |(d : Rat) * 1000 / (dt : Rat)| := by
  have hd : r.correctedDelta c z = d := wrapDelta_eq_of_correctedIs h
  rw [Regs.measuredSpeed, hd, signedSpeed]

/-- The sampling event of an UPDATE in Slewing behind a baseline sample, `dt` of at least SAMPLE_MS after the last
sampling event (rule R66). -/
theorem State.sampling_of_elapsedIs {s : State} {dt : Nat} (ha : s.regs.active = true) (hb : s.regs.base = true)
    (hdt : ElapsedIs s.cfg s.regs.ltime s.ports.msNow dt) (hgate : s.cfg.sampleMs ≤ dt) :
    s.sampling = .measurement dt := by
  have helapsed : clockSub s.cfg.clkW s.msNow s.regs.ltime = dt := clockSub_clockPort_eq_of_elapsedIs hdt
  have hopen : s.cfg.sampleMs ≤ clockSub s.cfg.clkW s.msNow s.regs.ltime := hgate.trans_eq helapsed.symm
  rw [State.sampling, Regs.sampling_open ha hb hopen, helapsed]

/-- Settles O30: the sampling event is a measurement over `dt`, its speed is that of the corrected delta, and the PWM
stage runs on the registers it leaves. -/
theorem updateMeasures : Obligations.UpdateMeasures := by
  intro s dt d ha hb hdt hgate hd
  have hspd := Regs.measuredSpeed_of_correctedIs dt hd
  have hsample := Regs.sample_of_measurement s.pos (State.sampling_of_elapsedIs ha hb hdt hgate)
  have hpwm := Regs.pwmLeaves_pwm s.cfg s.ports.usNow (s.regs.sample s.cfg s.msNow s.pos)
  have hexec := exec_update_of_slewing ha
  rw [hsample] at hpwm hexec
  exact ⟨_, _, _, _, hspd, rfl, hpwm, hexec⟩

end Sys2Proof.Machine

/-! SUPPORT. Mode control (rules R81 to R84) and the state machine it makes (rule R86): which commands write ACTIVE, and
what the others leave of it. -/

namespace Sys2Proof.Machine

/-! ## SETSLEW, CLRSLEW and INIT -/

theorem exec_setslew (s : State) :
    exec .setslew s = .next (s.withRegs (s.regs.setslew s.rate s.msNow s.usNow)) := rfl

/-- A positive rate writes DES, ACTIVE, BASE and the two timestamps (rule R81). -/
theorem exec_setslew_of_pos {s : State} (h : 0 < s.ports.rate) :
    exec .setslew s = .next { s with regs := { s.regs with
      des := s.ports.rate, active := true, base := false, ltime := s.ports.msNow % 2 ^ s.cfg.clkW,
      cstart := s.ports.usNow % 2 ^ s.cfg.clkW } } := by
  have hrate : 0 < s.rate := h
  rw [exec_setslew, Regs.setslew_of_pos _ _ _ hrate]
  rfl

/-- CLRSLEW writes ACTIVE, DES, DUTY and EN, each to a constant (rule R83). -/
theorem exec_clrslew (s : State) :
    exec .clrslew s = .next { s with regs := { s.regs with active := false, des := 0, duty := 1, en := true } } := rfl

/-- Any other rate makes SETSLEW a CLRSLEW (rule R82). -/
theorem exec_setslew_of_nonpos {s : State} (h : s.ports.rate ≤ 0) : exec .setslew s = exec .clrslew s := by
  have hrate : s.rate ≤ 0 := h
  rw [exec_setslew, Regs.setslew_of_nonpos _ _ _ hrate]
  rfl

/-- INIT writes the two direction pins low and EN high (rule R84). -/
theorem exec_init (s : State) :
    exec .init s = .next { s with regs := { s.regs with pa := false, pb := false, en := true } } := rfl

/-- Settles O46: it is the rule of SETSLEW for a positive rate. -/
theorem setslewEntersSlewing : Obligations.SetslewEntersSlewing :=
  ⟨decode_encode .setslew, fun _ => exec_setslew_of_pos⟩

/-- Settles O47: SETSLEW is CLRSLEW there, and CLRSLEW has its four writes. -/
theorem setslewNonPositiveIsClrslew : Obligations.SetslewNonPositiveIsClrslew :=
  ⟨decode_encode .setslew, fun s h =>
    ⟨exec_setslew_of_nonpos h, (exec_setslew_of_nonpos h).trans (exec_clrslew s)⟩⟩

/-- Settles O48: the writes are of constants, so a second CLRSLEW writes what stands there already. -/
theorem clrslewEntersIdle : Obligations.ClrslewEntersIdle :=
  ⟨decode_encode .clrslew, fun s => ⟨_, exec_clrslew s, rfl, exec_clrslew _⟩⟩

/-! ## UPDATE behind a change of the outputs -/

/-- The estimator and the controller neither look at the output registers nor write them (rules R65 to R73). -/
theorem Regs.sample_outputs (c : Config) (ms : Ticks) (z : Int) (r : Regs) (en pa pb : Bit) :
    Regs.sample c ms z { r with en := en, pa := pa, pb := pb } =
      { r.sample c ms z with en := en, pa := pa, pb := pb } := by
  have hsampling : Regs.sampling c ms { r with en := en, pa := pa, pb := pb } = r.sampling c ms := rfl
  cases h : r.sampling c ms with
  | skip => rw [Regs.sample_of_skip z h, Regs.sample_of_skip z (hsampling.trans h)]
  | baseline =>
    rw [Regs.sample_of_baseline z h, Regs.sample_of_baseline z (hsampling.trans h)]
    rfl
  | measurement dt =>
    rw [Regs.sample_of_measurement z h, Regs.sample_of_measurement z (hsampling.trans h)]
    rfl

/-- The PWM stage drives EN from CSTART and DUTY, whatever the outputs were (rules R74 to R76). -/
theorem Regs.pwm_en_outputs (c : Config) (us : Ticks) (r : Regs) (en pa pb : Bit) :
    (Regs.pwm c us { r with en := en, pa := pa, pb := pb }).en = (r.pwm c us).en := rfl

/-- In Slewing UPDATE drives EN alike from any output registers (rules R75 and R76). -/
theorem Regs.update_en_outputs (c : Config) (ms us : Ticks) (z : Int) {r : Regs} (en pa pb : Bit)
    (h : r.active = true) :
    (Regs.update c ms us z { r with en := en, pa := pa, pb := pb }).en = (r.update c ms us z).en := by
  have hslewing : Regs.active { r with en := en, pa := pa, pb := pb } = true := h
  rw [Regs.update_slewing c ms us z h, Regs.update_slewing c ms us z hslewing, Regs.sample_outputs,
    Regs.pwm_en_outputs]

/-- Settles O49: INIT writes constants, so a second one changes nothing, and it writes output registers only, from which
no UPDATE in Slewing takes EN. -/
theorem initDrivesDefaultOutputs : Obligations.InitDrivesDefaultOutputs := by
  refine ⟨decode_encode .init, fun s => ⟨_, exec_init s, rfl, ?repeated, fun u v hslewing hu hv => ?updated⟩⟩
  case repeated => exact exec_init _
  case updated =>
    cases hu
    cases hv
    exact Regs.update_en_outputs s.cfg s.msNow s.usNow s.pos true false false hslewing

/-! ## The operating state -/

@[simp] theorem Regs.sample_active (c : Config) (ms : Ticks) (z : Int) (r : Regs) :
    (r.sample c ms z).active = r.active := by
  rcases Regs.sample_cases c ms z r with h | ⟨-, -, h⟩ | ⟨-, -, -, h⟩
  · rw [h]
  · rw [h, Regs.takeBaseline_active]
  · rw [h, Regs.recordMeasurement_active]

@[simp] theorem Regs.pwm_active (c : Config) (us : Ticks) (r : Regs) : (r.pwm c us).active = r.active := rfl

/-- UPDATE keeps the operating state it finds (rule R86). -/
@[simp] theorem Regs.update_active (c : Config) (ms us : Ticks) (z : Int) (r : Regs) :
    (r.update c ms us z).active = r.active := by
  cases ha : r.active with
  | false => rw [Regs.update_idle c ms us z ha, ha]
  | true => rw [Regs.update_slewing c ms us z ha, Regs.pwm_active, Regs.sample_active, ha]

/-- SETSLEW decides the operating state by the sign of the rate alone (rules R81 and R82). -/
theorem Regs.setslew_active_iff (rate : Rat) (ms us : Ticks) (r : Regs) :
    (r.setslew rate ms us).active = true ↔ 0 < rate := by
  rcases Regs.setslew_cases rate ms us r with ⟨hpos, h⟩ | ⟨hnonpos, h⟩
  · simp [h, hpos]
  · simp [h, not_lt.mpr hnonpos]

/-- An operation that is none of SETSLEW and CLRSLEW keeps the operating state (rule R86). -/
theorem exec_keeps_active {i : Instr} (hset : i ≠ .setslew) (hclr : i ≠ .clrslew) (s : State) :
    ∃ t, exec i s = .next t ∧ t.regs.active = s.regs.active := by
  cases i with
  | update => exact ⟨_, rfl, Regs.update_active ..⟩
  | setslew => exact absurd rfl hset
  | clrslew => exact absurd rfl hclr
  | setdir d => exact ⟨_, exec_setdir d s, rfl⟩
  | stop => exact ⟨_, exec_stop s, rfl⟩
  | getspeed => exact ⟨_, rfl, rfl⟩
  | init => exact ⟨_, exec_init s, rfl⟩

/-- Settles O52: SETSLEW decides by its rate, CLRSLEW always leaves Slewing, and every other operation keeps ACTIVE. -/
theorem operatingStateTransitions : Obligations.OperatingStateTransitions := by
  intro i s
  by_cases hset : i = .setslew
  · subst hset
    have hactive := Regs.setslew_active_iff s.rate s.msNow s.usNow s.regs
    exact ⟨_, exec_setslew s, hactive.trans (by simp [State.rate])⟩
  by_cases hclr : i = .clrslew
  · subst hclr
    exact ⟨_, exec_clrslew s, by simp⟩
  obtain ⟨t, hexec, hactive⟩ := exec_keeps_active hset hclr s
  exact ⟨t, hexec, by simp [hactive, hset, hclr]⟩

end Sys2Proof.Machine

/-! SUPPORT. The command words (rules R46 to R56): what a spelling assembles to, and which words are illegal, field by
field. -/

namespace Sys2Proof

/-- Settles O1: a legal word is the word of its operation, and that word decodes to it. -/
theorem decodeInvertsEncode : Obligations.DecodeInvertsEncode := fun _ i =>
  ⟨eq_encode_of_decode, fun h => h ▸ decode_encode i⟩

/-- Settles O3: the five words are the encodings of their operations. -/
theorem specWordsDecode : Obligations.SpecWordsDecode :=
  ⟨decode_encode .update, decode_encode .setslew, decode_encode (.setdir .forward), decode_encode (.setdir .backward),
    decode_encode .init⟩

/-- The assembler puts the word of the operation on port CMD, whatever the lines show (rule R56). -/
theorem Spelling.ports_cmd (sp : Spelling) (lines : Ports) : (sp.ports lines).cmd = encode sp.instr := by
  cases sp <;> rfl

/-- Settles O4: the word on CMD is an encoding. -/
theorem spellingsAssemble : Obligations.SpellingsAssemble := fun sp lines => by
  rw [Spelling.ports_cmd, decode_encode]

/-! ## The fields as numbers -/

theorem opField_toNat (w : CommandWord) : (opField w).toNat = w.toNat % 8 := by
  simp [opField]

theorem rsv0Field_toNat (w : CommandWord) : (rsv0Field w).toNat = w.toNat / 8 % 2 := by
  simp [rsv0Field, Nat.shiftRight_eq_div_pow]

theorem dselField_toNat (w : CommandWord) : (dselField w).toNat = w.toNat / 16 % 4 := by
  simp [dselField, Nat.shiftRight_eq_div_pow]

theorem rsv1Field_toNat (w : CommandWord) : (rsv1Field w).toNat = w.toNat / 64 := by
  have hlt := w.isLt
  simp only [rsv1Field, BitVec.extractLsb'_toNat, Nat.shiftRight_eq_div_pow]
  omega

/-! ## The illegal words -/

/-- The codes of OP and DSEL that select no operation: classes (a), (b) and (d) of rule R51. -/
theorem decodeOp_isOk_eq_false_iff : ∀ (op : BitVec 3) (dsel : BitVec 2),
    (decodeOp op dsel).isOk = false ↔
      op.toNat = 7 ∨ (op.toNat = 3 ∧ dsel.toNat = 3) ∨ (op.toNat ≠ 3 ∧ dsel.toNat ≠ 0) := by
  decide

/-- A word is refused for a reserved bit, or for its codes of OP and DSEL (rule R51). -/
theorem decode_isOk_eq_false_iff_fields (w : CommandWord) :
    (decode w).isOk = false ↔
      ¬((rsv0Field w).toNat = 0 ∧ (rsv1Field w).toNat = 0) ∨ (decodeOp (opField w) (dselField w)).isOk = false := by
  have hrsv : (rsv0Field w = 0b0#1 ∧ rsv1Field w = 0b00#2) ↔ ((rsv0Field w).toNat = 0 ∧ (rsv1Field w).toNat = 0) := by
    simp [← BitVec.toNat_inj]
  rw [← hrsv, decode]
  split_ifs with h
  · simp [h]
  · simp [h, Except.isOk, Except.toBool]

/-- The illegal words are the four classes of rule R51, in terms of the word's value. -/
theorem decode_isOk_eq_false_iff (w : CommandWord) :
    (decode w).isOk = false ↔
      (w.toNat % 8 = 7 ∨ w.toNat = 0x33 ∨ w.toNat / 8 % 2 = 1 ∨ w.toNat / 64 ≠ 0 ∨
        (w.toNat % 8 ≠ 3 ∧ w.toNat / 16 % 4 ≠ 0)) := by
  rw [decode_isOk_eq_false_iff_fields, decodeOp_isOk_eq_false_iff, opField_toNat, rsv0Field_toNat, dselField_toNat,
    rsv1Field_toNat]
  omega

end Sys2Proof

/-! SUPPORT. Taking a command (rules R40, R42, R53 and R88): what one step and one serving do with the oldest issued
command, and what they leave alone. -/

namespace Sys2Proof.Machine

open Sys2Proof.Safety

/-! ## One step -/

theorem step_of_waiting {s : State} (hc : s.cfg.WellFormed) (hp : s.pending = []) : step s = .next s := by
  simp only [step, State.fetch_waiting hc hp]

theorem step_of_carries {s : State} {p : Ports} {rest : List Ports} {i : Instr} (hc : s.cfg.WellFormed)
    (hp : s.pending = p :: rest) (hd : Carries p i) : step s = exec i (s.present p rest) := by
  simp only [step, State.fetch_run hc hp hd]

theorem step_of_illegal {s : State} {p : Ports} {rest : List Ports} {why : IllegalWord} (hc : s.cfg.WellFormed)
    (hp : s.pending = p :: rest) (hd : decode p.cmd = .error why) : step s = .refused (.illegalWord why) := by
  simp only [step, State.fetch_illegal hc hp hd]

/-- Settles O6: it is the rule of a step on a legal word. -/
theorem stepRunsDecodedCommand : Obligations.StepRunsDecodedCommand := fun _ _ _ _ => step_of_carries

/-- Settles O8: it is the rule of a step with no command issued. -/
theorem stepWaitsWithoutCommand : Obligations.StepWaitsWithoutCommand := fun _ => step_of_waiting

/-- A word fits the eight bits in which it is placed. -/
theorem State.withFetchWord_toNat (s : State) (w : CommandWord) : s.withFetchWord 8 w.toNat = s.placeWord w := by
  rw [State.withFetchWord, Nat.mod_eq_of_lt w.isLt, BitVec.ofNat_toNat, BitVec.setWidth_eq]

/-- Settles O7: the placed word stands in the oldest issued command, which the step takes. -/
theorem placedWordIsRun : Obligations.PlacedWordIsRun := by
  intro s w i hc hd
  refine ⟨fun p rest hp => ?issued, fun hp => ?none⟩
  case issued =>
    rw [State.withFetchWord_toNat, State.placeWord_of_cons w hp]
    exact step_of_carries hc rfl hd
  case none =>
    rw [State.withFetchWord_toNat, State.placeWord_of_nil w hp]
    exact step_of_carries hc rfl hd

/-- Every operation answers a next state (rules R86 and R87). -/
theorem exec_completes (i : Instr) (s : State) : ∃ t, exec i s = .next t := by
  cases i <;> exact ⟨_, rfl⟩

/-- Settles O5: a step is refused for its word exactly where the decoder refuses the word. -/
theorem illegalWordsAreRefused : Obligations.IllegalWordsAreRefused := by
  intro s p rest hc hp
  rw [← decode_isOk_eq_false_iff]
  cases hd : decode p.cmd with
  | error why => simp [step_of_illegal hc hp hd, Except.isOk, Except.toBool]
  | ok i =>
    obtain ⟨t, hexec⟩ := exec_completes i (s.present p rest)
    simp [step_of_carries hc hp hd, hexec, Except.isOk, Except.toBool]

/-- An operation writes none of the configuration, the ports, the queue and the refusal mark. -/
theorem exec_frame {i : Instr} {s t : State} (h : exec i s = .next t) :
    t.cfg = s.cfg ∧ t.ports = s.ports ∧ t.pending = s.pending ∧ t.refusalMark = s.refusalMark := by
  rw [exec_next_eq h]
  exact ⟨rfl, rfl, rfl, rfl⟩

/-- A step on a legal word completes: the command is taken, its ports are presented, and the configuration and the
refusal mark stay (rules R86 to R88). -/
theorem step_of_legal {s : State} {p : Ports} {rest : List Ports} (hc : s.cfg.WellFormed) (hp : s.pending = p :: rest)
    (hlegal : Legal p) :
    ∃ t, step s = .next t ∧ t.pending = rest ∧ t.ports = p ∧ t.cfg = s.cfg ∧ t.refusalMark = s.refusalMark := by
  obtain ⟨i, hd⟩ := hlegal
  obtain ⟨t, hexec⟩ := exec_completes i (s.present p rest)
  obtain ⟨hcfg, hports, hpending, hmark⟩ := exec_frame hexec
  exact ⟨t, (step_of_carries hc hp hd).trans hexec, hpending, hports, hcfg, hmark⟩

/-- Settles O10: no operation has another outcome than a next state. -/
theorem legalCommandsComplete : Obligations.LegalCommandsComplete := by
  refine ⟨exec_completes, fun s p rest hc hp hlegal => ?_⟩
  obtain ⟨t, hstep, hpending, hports, -, -⟩ := step_of_legal hc hp hlegal
  exact ⟨t, hstep, hpending, hports⟩

/-- No step writes the configuration (rules R32 and R100). -/
theorem step_keeps_cfg {s t : State} (h : step s = .next t) : t.cfg = s.cfg := by
  obtain ⟨-, ⟨-, rfl⟩ | ⟨p, rest, i, -, -, hexec⟩⟩ := step_next_cases h
  · rfl
  · obtain ⟨hcfg, -, -, -⟩ := exec_frame hexec
    exact hcfg

/-- No step writes the refusal mark (rule R88). -/
theorem step_keeps_mark {s t : State} (h : step s = .next t) : t.refusalMark = s.refusalMark := by
  obtain ⟨-, ⟨-, rfl⟩ | ⟨p, rest, i, -, -, hexec⟩⟩ := step_next_cases h
  · rfl
  · obtain ⟨-, -, -, hmark⟩ := exec_frame hexec
    exact hmark

/-! ## One serving -/

/-- A serving is a step, or the refused command is dropped and the mark set (rule R88). -/
theorem State.serve_cases (s : State) : step s = .next s.serve ∨ s.serve = s.dropRefused := by
  cases h : step s with
  | next t => exact .inl (by rw [State.serve, h])
  | fault f => exact nomatch f
  | refused why => exact .inr (by rw [State.serve, h])

theorem State.serve_of_next {s t : State} (h : step s = .next t) : s.serve = t := by rw [State.serve, h]

theorem State.serve_of_illegal {s : State} {p : Ports} {rest : List Ports} (hc : s.cfg.WellFormed)
    (hp : s.pending = p :: rest) (hillegal : ¬Legal p) : s.serve = s.dropRefused := by
  cases hd : decode p.cmd with
  | ok i => exact absurd ⟨i, hd⟩ hillegal
  | error why => rw [State.serve, step_of_illegal hc hp hd]

/-- What every serving keeps, any number of servings keeps. -/
theorem State.serveMany_induct {P : State → Prop} (hserve : ∀ s, P s → P s.serve) (k : Nat) {s : State} (hs : P s) :
    P (State.serveMany k s) := by
  induction k generalizing s with
  | zero => exact hs
  | succ k ih => exact ih (hserve s hs)

/-- Settles O11: the serving loop drops the command and sets the mark. -/
theorem illegalWordSetsMarkOnly : Obligations.IllegalWordSetsMarkOnly := by
  intro s p rest hc hp hillegal
  rw [State.serve_of_illegal hc hp hillegal, State.dropRefused, hp, List.tail_cons]

theorem State.serve_keeps_mark (s : State) (h : s.refusalMark = true) : s.serve.refusalMark = true := by
  rcases s.serve_cases with hstep | hdrop
  · exact (step_keeps_mark hstep).trans h
  · rw [hdrop, State.dropRefused_refusalMark]

/-- Settles O12: no serving clears the mark. -/
theorem refusalMarkIsKept : Obligations.RefusalMarkIsKept := fun k _ =>
  State.serveMany_induct State.serve_keeps_mark k

@[simp] theorem State.serve_cfg (s : State) : s.serve.cfg = s.cfg := by
  rcases s.serve_cases with hstep | hdrop
  · exact step_keeps_cfg hstep
  · rw [hdrop, State.dropRefused_cfg]

@[simp] theorem State.serveMany_cfg (k : Nat) (s : State) : (State.serveMany k s).cfg = s.cfg :=
  State.serveMany_induct (P := fun t => t.cfg = s.cfg) (fun t h => t.serve_cfg.trans h) k rfl

/-- Settles O15: neither a step nor a serving writes the configuration. -/
theorem configurationIsNeverWritten : Obligations.ConfigurationIsNeverWritten :=
  ⟨fun _ _ => step_keeps_cfg, State.serveMany_cfg⟩

/-- Settles O13, by induction on the issued commands: a legal one leaves the mark as it is, an illegal one sets it for
good. -/
theorem unrefusedRunsAreTheLegalOnes : Obligations.UnrefusedRunsAreTheLegalOnes := by
  intro s hc
  generalize hps : s.pending = ps
  induction ps generalizing s with
  | nil => simp [State.serveMany]
  | cons p rest ih =>
    rw [List.length_cons, State.serveMany, List.forall_mem_cons]
    by_cases hlegal : Legal p
    · obtain ⟨t, hstep, hpending, -, hcfg, hmark⟩ := step_of_legal hc hps hlegal
      rw [State.serve_of_next hstep, ih t (hcfg ▸ hc) hpending, Unrefused, Unrefused, hmark]
      simp [hlegal]
    · have hset : (State.serveMany rest.length s.serve).refusalMark = true :=
        refusalMarkIsKept _ _ (by rw [State.serve_of_illegal hc hps hlegal, State.dropRefused_refusalMark])
      simp [Unrefused, hset, hlegal]

/-! ## Runs -/

/-- An operation does not look at the queue (rules R40 and R42). -/
theorem exec_with_pending {i : Instr} {s t : State} (qs : List Ports) (h : exec i s = .next t) :
    exec i { s with pending := qs } = .next { t with pending := qs } := by
  cases i <;> cases h <;> rfl

/-- Commands issued behind the one that a step takes stay issued, and change nothing of what it does (rule R42). -/
theorem step_append {s t : State} {p : Ports} {ps qs : List Ports} (h : step { s with pending := p :: ps } = .next t) :
    t.pending = ps ∧ step { s with pending := p :: (ps ++ qs) } = .next { t with pending := ps ++ qs } := by
  obtain ⟨hc, ⟨hnil, -⟩ | ⟨p', rest, i, hp, hd, hexec⟩⟩ := step_next_cases h
  · cases hnil
  · cases hp
    obtain ⟨-, -, hpending, -⟩ := exec_frame hexec
    have hbehind : step { s with pending := p :: (ps ++ qs) } =
        exec i (State.present p (ps ++ qs) { s with pending := p :: (ps ++ qs) }) := step_of_carries hc rfl hd
    exact ⟨hpending, hbehind.trans (exec_with_pending (ps ++ qs) hexec)⟩

/-- Settles O9, by induction on the commands in front: each step takes the first of them. -/
theorem commandsTakeEffectInOrder : Obligations.CommandsTakeEffectInOrder := by
  intro ps qs s t hrun
  induction ps generalizing s with
  | nil =>
    cases hrun
    exact ⟨rfl, fun n => by rw [List.length_nil, Nat.zero_add, List.nil_append]⟩
  | cons p ps ih =>
    obtain ⟨u, hstep, hrest⟩ := run_succ_next_cases hrun
    obtain ⟨hpending, -⟩ := step_append (qs := qs) hstep
    have hself : { u with pending := ps } = u := by rw [← hpending]
    obtain ⟨hdone, hcont⟩ := ih u (by rwa [hself])
    refine ⟨hdone, fun n => ?_⟩
    calc Host.Core.run core ((p :: ps).length + n) { s with pending := p :: ps ++ qs }
        = Host.Core.run core (ps.length + n + 1) { s with pending := p :: (ps ++ qs) } := by
          rw [List.length_cons, Nat.add_right_comm, List.cons_append]
      _ = Host.Core.run core (ps.length + n) { u with pending := ps ++ qs } :=
          run_succ_of_next _ (step_append hstep).2
      _ = Host.Core.run core n { t with pending := qs } := hcont n

/-! ## Several blocks side by side -/

/-- A number that names no block moves nothing, and any other moves its own block by its own step (rule R96). -/
theorem stepInstance_next_cases {k : Nat} {fleet fleet' : List State} (h : stepInstance k fleet = .next fleet') :
    (fleet[k]? = none ∧ fleet' = fleet) ∨ ∃ s t, fleet[k]? = some s ∧ step s = .next t ∧ fleet' = fleet.set k t := by
  cases hk : fleet[k]? with
  | none =>
    simp only [stepInstance, hk] at h
    cases h
    exact .inl ⟨rfl, rfl⟩
  | some s =>
    cases hs : step s with
    | next t =>
      simp only [stepInstance, hk, hs] at h
      cases h
      exact .inr ⟨s, t, rfl, hs, rfl⟩
    | fault f => exact nomatch f
    | refused why =>
      simp only [stepInstance, hk, hs] at h
      cases h

/-- Settles O16: at most one place of the list is written, with what the step of the block there gives. -/
theorem instancesAreIndependent : Obligations.InstancesAreIndependent := by
  intro k fleet fleet' h
  obtain ⟨hnone, rfl⟩ | ⟨s, t, hs, hstep, rfl⟩ := stepInstance_next_cases h
  · exact ⟨rfl, fun _ _ => rfl, fun s hs => by rw [hnone] at hs; cases hs⟩
  · have hlt : k < fleet.length := (List.getElem?_eq_some_iff.mp hs).1
    refine ⟨List.length_set, fun j hj => List.getElem?_set_ne hj.symm, fun s' hs' => ?_⟩
    obtain rfl : s = s' := Option.some.inj (hs.symm.trans hs')
    exact ⟨t, hstep, List.getElem?_set_self hlt⟩

/-- Settles O17, by induction on the order: each serving in it serves the block it names and no other. -/
theorem servedInstancesRunAsAlone : Obligations.ServedInstancesRunAsAlone := by
  intro order fleet j
  induction order generalizing fleet with
  | nil => exact (congrFun Option.map_id fleet[j]?).symm
  | cons k order ih =>
    rw [serveFleet, ih, serveInstance_getElem?]
    by_cases hjk : j = k
    · subst hjk
      rw [if_pos rfl, List.count_cons_self, Option.map_map]
      rfl
    · rw [if_neg hjk, List.count_cons_of_ne (Ne.symm hjk)]

end Sys2Proof.Machine

/-! SUPPORT. What a step can do to the registers, said once: one way for each command and operating state. The invariants
and the statements about which command moves which register are read off it. -/

namespace Sys2Proof.Machine

open Sys2Proof.Safety

/-! ## The register writes of a performed command -/

/-- What performing the command presented as `p` makes of the registers `r`, and when (rules R60, R61, R64 and R79 to
R85). -/
inductive Performs (c : Config) (r : Regs) (p : Ports) : Regs → Prop where
  | updateIdle (hcarries : Carries p .update) (hidle : r.active = false) : Performs c r p r
  | updateSlewing (hcarries : Carries p .update) (hslewing : r.active = true) :
      Performs c r p ((r.sample c (clockPort c.clkW p.msNow) p.pos).pwm c (clockPort c.clkW p.usNow))
  | enterSlewing (hcarries : Carries p .setslew) (hrate : 0 < p.rate) :
      Performs c r p (r.enterSlewing p.rate (clockPort c.clkW p.msNow) (clockPort c.clkW p.usNow))
  | enterIdle (hcarries : Carries p .clrslew ∨ (Carries p .setslew ∧ p.rate ≤ 0)) : Performs c r p r.enterIdle
  | setdir (d : Direction) (hcarries : Carries p (.setdir d)) : Performs c r p (r.driveDirection d)
  | stop (hcarries : Carries p .stop) : Performs c r p ((r.driveDirection .stop).driveEnable false)
  | getspeed (hcarries : Carries p .getspeed) : Performs c r p r
  | init (hcarries : Carries p .init) : Performs c r p ((r.driveDirection .stop).driveEnable true)

/-- Each operation makes of the registers what `Performs` lists for it. -/
theorem exec_performs {i : Instr} {s t : State} {p : Ports} {rest : List Ports} (hd : Carries p i)
    (h : exec i (s.present p rest) = .next t) : Performs s.cfg s.regs p t.regs := by
  cases i with
  | update =>
    cases ha : s.regs.active with
    | false =>
      rw [exec_update_of_idle (s := s.present p rest) ha] at h
      cases h
      exact .updateIdle hd ha
    | true =>
      rw [exec_update_of_slewing (s := s.present p rest) ha] at h
      cases h
      exact .updateSlewing hd ha
  | setslew =>
    rcases lt_or_ge 0 p.rate with hr | hr
    · rw [exec_setslew_of_pos (s := s.present p rest) hr] at h
      cases h
      exact .enterSlewing hd hr
    · rw [exec_setslew_of_nonpos (s := s.present p rest) hr] at h
      cases h
      exact .enterIdle (.inr ⟨hd, hr⟩)
  | clrslew => cases h; exact .enterIdle (.inl hd)
  | setdir d => cases h; exact .setdir d hd
  | stop => cases h; exact .stop hd
  | getspeed => cases h; exact .getspeed hd
  | init => cases h; exact .init hd

/-- A step that takes a command performs it and leaves the others issued. -/
theorem step_performs {s t : State} {p : Ports} {rest : List Ports} (h : step s = .next t)
    (hp : s.pending = p :: rest) : t.pending = rest ∧ Performs s.cfg s.regs p t.regs := by
  obtain ⟨-, ⟨hnil, -⟩ | ⟨p', rest', i, hp', hd, hexec⟩⟩ := step_next_cases h
  · rw [hnil] at hp
    cases hp
  · obtain ⟨rfl, rfl⟩ : p' = p ∧ rest' = rest := List.cons.inj (hp'.symm.trans hp)
    obtain ⟨-, -, hpending, -⟩ := exec_frame hexec
    exact ⟨hpending, exec_performs hd hexec⟩

/-- A step waits, or takes a command and performs it. -/
theorem step_next_performs {s t : State} (h : step s = .next t) :
    t = s ∨ ∃ p rest, s.pending = p :: rest ∧ Performs s.cfg s.regs p t.regs := by
  obtain ⟨-, ⟨-, hwait⟩ | ⟨p, rest, i, hp, hd, hexec⟩⟩ := step_next_cases h
  · exact .inl hwait
  · exact .inr ⟨p, rest, hp, exec_performs hd hexec⟩

/-- A presentation carries one operation at most. -/
theorem carries_unique {p : Ports} {i j : Instr} (hi : Carries p i) (hj : Carries p j) : i = j :=
  Except.ok.inj (hi.symm.trans hj)

/-! ## The invariant (rules R20, R22 and R34) -/

theorem Regs.sample_keeps_domain {c : Config} {ms : Ticks} (z : Int) {r : Regs} (hms : ms < c.clockSpan)
    (h : RegsInDomain c r) : RegsInDomain c (r.sample c ms z) := by
  rcases Regs.sample_cases c ms z r with heq | ⟨-, -, heq⟩ | ⟨-, -, -, heq⟩
  · rwa [heq]
  · rw [heq]
    exact ⟨hms, h.2⟩
  · rw [heq]
    exact ⟨hms, h.2⟩

/-- The catch-up by whole periods takes place in the clock's domain (rule R75). -/
theorem caughtUpStart_lt {c : Config} {cs : Ticks} (e : Ticks) (h : cs < 2 ^ c.clkW) :
    caughtUpStart c cs e < 2 ^ c.clkW := by
  unfold caughtUpStart
  split
  · exact clockAdd_lt ..
  · exact h

theorem Performs.keeps_domain {c : Config} {r r' : Regs} {p : Ports} (h : Performs c r p r')
    (hr : RegsInDomain c r) : RegsInDomain c r' := by
  cases h with
  | updateSlewing =>
    obtain ⟨hltime, hcstart⟩ := Regs.sample_keeps_domain p.pos (clockPort_lt c.clkW p.msNow) hr
    exact ⟨hltime, caughtUpStart_lt _ hcstart⟩
  | enterSlewing => exact ⟨clockPort_lt .., clockPort_lt ..⟩
  | _ => exact hr

/-- The magnitude and the clamp keep SPD and DUTY legal (rules R70 and R72), and nothing else of rule R34 is written. -/
theorem Regs.sample_keeps_legal (c : Config) (ms : Ticks) (z : Int) {r : Regs} (h : RegsLegal r) :
    RegsLegal (r.sample c ms z) := by
  rcases Regs.sample_cases c ms z r with heq | ⟨-, -, heq⟩ | ⟨-, ha, -, heq⟩
  · rwa [heq]
  · rw [heq]
    exact h
  · obtain ⟨-, -, hdes, -, -, hpins⟩ := h
    rw [heq]
    exact ⟨⟨clamp01_nonneg _, clamp01_le_one _⟩, Regs.measuredSpeed_nonneg .., hdes, by simp [ha], by simp [ha], hpins⟩

theorem Regs.enterIdle_keeps_legal {r : Regs} (h : RegsLegal r) : RegsLegal r.enterIdle := by
  obtain ⟨-, hspd, -, -, -, hpins⟩ := h
  exact ⟨⟨zero_le_one, le_rfl⟩, hspd, by simp, by simp, by simp, hpins⟩

theorem Regs.enterSlewing_keeps_legal {rate : Rat} (ms us : Ticks) {r : Regs} (hrate : 0 < rate) (h : RegsLegal r) :
    RegsLegal (r.enterSlewing rate ms us) := by
  obtain ⟨hduty, hspd, -, -, -, hpins⟩ := h
  exact ⟨hduty, hspd, fun _ => hrate, by simp, by simp, hpins⟩

theorem Regs.driveDirection_keeps_legal (d : Direction) {r : Regs} (h : RegsLegal r) :
    RegsLegal (r.driveDirection d) := by
  obtain ⟨hduty, hspd, hslewing, hdes, hidle, -⟩ := h
  exact ⟨hduty, hspd, hslewing, hdes, hidle, Direction.not_both_high d⟩

theorem Regs.driveEnable_keeps_legal (b : Bit) {r : Regs} (h : RegsLegal r) : RegsLegal (r.driveEnable b) := h

theorem Performs.keeps_legal {c : Config} {r r' : Regs} {p : Ports} (h : Performs c r p r') (hr : RegsLegal r) :
    RegsLegal r' := by
  cases h with
  | updateIdle => exact hr
  | updateSlewing => exact Regs.sample_keeps_legal c _ p.pos hr
  | enterSlewing _ hrate => exact Regs.enterSlewing_keeps_legal _ _ hrate hr
  | enterIdle => exact Regs.enterIdle_keeps_legal hr
  | setdir d => exact Regs.driveDirection_keeps_legal d hr
  | stop => exact Regs.driveEnable_keeps_legal false (Regs.driveDirection_keeps_legal .stop hr)
  | getspeed => exact hr
  | init => exact Regs.driveEnable_keeps_legal true (Regs.driveDirection_keeps_legal .stop hr)

/-- The returned value of an operation is the speed, if it returns one (rule R85). -/
theorem exec_result {i : Instr} {s t : State} (h : exec i s = .next t) :
    t.result = s.result ∨ t.result = some s.regs.spd := by
  cases i with
  | getspeed => cases h; exact .inr rfl
  | _ => cases h; exact .inl rfl

/-- What a step returns is a magnitude, where SPD and what was returned before are. -/
theorem step_keeps_result {s t : State} (h : step s = .next t) (hspd : 0 ≤ s.regs.spd)
    (hresult : ∀ q ∈ s.result, 0 ≤ q) : ∀ q ∈ t.result, 0 ≤ q := by
  obtain ⟨-, ⟨-, rfl⟩ | ⟨p, rest, i, -, -, hexec⟩⟩ := step_next_cases h
  · exact hresult
  · rcases exec_result hexec with hq | hq <;> simp [hq, hspd]

/-- Settles O20: each write of a performed command keeps the domains and rule R34, and the configuration is not written. -/
theorem everyStepKeepsInvariant : Obligations.EveryStepKeepsInvariant := by
  intro s t hinv hstep
  obtain ⟨hc, hdom, hlegal, hresult⟩ := hinv
  obtain ⟨-, hspd, -⟩ := id hlegal
  have hcfg := step_keeps_cfg hstep
  have hresult' := step_keeps_result hstep hspd hresult
  rcases step_next_performs hstep with rfl | ⟨p, rest, -, hperf⟩
  · exact ⟨hc, hdom, hlegal, hresult⟩
  · exact ⟨hcfg ▸ hc, hcfg ▸ hperf.keeps_domain hdom, hperf.keeps_legal hlegal, hresult'⟩

theorem State.serve_keeps_invariant (s : State) (h : StateInv s) : StateInv s.serve := by
  rcases s.serve_cases with hstep | hdrop
  · exact everyStepKeepsInvariant s _ h hstep
  · rw [hdrop]
    exact h

/-! ## Reset (rules R35, R100 and R102) -/

theorem State.eq_resetUnder_of_resetWith {c : Config} {s : State} (h : State.resetWith c = some s) :
    c.WellFormed ∧ s = State.resetUnder c := by
  by_cases hc : c.WellFormed
  · rw [State.resetWith_of_wellFormed hc] at h
    exact ⟨hc, (Option.some.inj h).symm⟩
  · rw [State.resetWith_of_malformed hc] at h
    cases h

/-- Settles O18: the reset state is built from the table of rule R35. -/
theorem resetRegisterValues : Obligations.ResetRegisterValues := fun c hc =>
  ⟨State.resetUnder c, State.resetWith_of_wellFormed hc, rfl, rfl, rfl, rfl, rfl, rfl, rfl, rfl, rfl, rfl, rfl, rfl⟩

/-- The registers of the reset state meet the invariant, whatever has been issued. -/
theorem State.resetUnder_invariant {c : Config} (ps : List Ports) (hc : c.WellFormed) :
    StateInv { State.resetUnder c with pending := ps } := by
  refine ⟨hc, ⟨two_pow_pos c.clkW, two_pow_pos c.clkW⟩, ⟨⟨zero_le_one, le_rfl⟩, le_rfl, ?slewing, ?idle, ?duty, ?pins⟩,
    ?result⟩ <;> simp [State.resetUnder, Regs.reset]

/-- Settles O19: the default configuration is well formed, and the reset state of a well-formed one meets the
invariant. -/
theorem resetMeetsInvariant : Obligations.ResetMeetsInvariant := by
  refine ⟨State.resetUnder_invariant (c := Config.default) [] (by decide), fun c s h => ?_⟩
  obtain ⟨hc, rfl⟩ := State.eq_resetUnder_of_resetWith h
  exact State.resetUnder_invariant [] hc

/-- Settles O21: the invariant holds at reset and every serving keeps it. -/
theorem dutyStaysInUnitInterval : Obligations.DutyStaysInUnitInterval := by
  intro c ps k hc
  obtain ⟨-, -, ⟨hduty, -⟩, -⟩ :=
    State.serveMany_induct State.serve_keeps_invariant k (State.resetUnder_invariant ps hc)
  exact hduty

/-- Settles O50: reset has the default outputs already. -/
theorem initAfterResetChangesNothing : Obligations.InitAfterResetChangesNothing := by
  intro c s h
  obtain ⟨-, rfl⟩ := State.eq_resetUnder_of_resetWith h
  exact exec_init _

/-- GETSPEED returns SPD and writes no register (rule R85). -/
theorem exec_getspeed (s : State) : exec .getspeed s = .next { s with result := some s.regs.spd } := rfl

/-- Settles O51: SPD is 0 at reset. -/
theorem getspeedReturnsSpeed : Obligations.GetspeedReturnsSpeed := by
  refine ⟨decode_encode .getspeed, fun s => ⟨exec_getspeed s, rfl⟩, fun c s h => ?_⟩
  obtain ⟨-, rfl⟩ := State.eq_resetUnder_of_resetWith h
  exact exec_getspeed _

end Sys2Proof.Machine

/-! SUPPORT. Which commands move which register (rules R16 to R25, R34(g) and R45), read off what a performed command
does. -/

namespace Sys2Proof.Machine

open Sys2Proof.Safety

/-! ## The outputs -/

theorem Performs.moves_en {c : Config} {r r' : Regs} {p : Ports} (h : Performs c r p r') (hne : r'.en ≠ r.en) :
    (Carries p .update ∧ r.active = true) ∨ Carries p .stop ∨ Carries p .clrslew ∨
      (Carries p .setslew ∧ p.rate ≤ 0) ∨ Carries p .init := by
  cases h with
  | updateIdle => exact absurd rfl hne
  | updateSlewing hcarries hslewing => exact .inl ⟨hcarries, hslewing⟩
  | enterSlewing => exact absurd rfl hne
  | enterIdle hcarries => tauto
  | setdir => exact absurd rfl hne
  | stop hcarries => exact .inr (.inl hcarries)
  | getspeed => exact absurd rfl hne
  | init hcarries => tauto

@[simp] theorem Regs.sample_pa (c : Config) (ms : Ticks) (z : Int) (r : Regs) : (r.sample c ms z).pa = r.pa := by
  rcases Regs.sample_cases c ms z r with h | ⟨-, -, h⟩ | ⟨-, -, -, h⟩ <;> simp [h]

@[simp] theorem Regs.sample_pb (c : Config) (ms : Ticks) (z : Int) (r : Regs) : (r.sample c ms z).pb = r.pb := by
  rcases Regs.sample_cases c ms z r with h | ⟨-, -, h⟩ | ⟨-, -, -, h⟩ <;> simp [h]

@[simp] theorem Regs.sample_des (c : Config) (ms : Ticks) (z : Int) (r : Regs) : (r.sample c ms z).des = r.des := by
  rcases Regs.sample_cases c ms z r with h | ⟨-, -, h⟩ | ⟨-, -, -, h⟩ <;> simp [h]

@[simp] theorem Regs.sample_cstart (c : Config) (ms : Ticks) (z : Int) (r : Regs) :
    (r.sample c ms z).cstart = r.cstart := by
  rcases Regs.sample_cases c ms z r with h | ⟨-, -, h⟩ | ⟨-, -, -, h⟩ <;> simp [h]

@[simp] theorem Regs.pwm_des (c : Config) (us : Ticks) (r : Regs) : (r.pwm c us).des = r.des := rfl
@[simp] theorem Regs.pwm_duty (c : Config) (us : Ticks) (r : Regs) : (r.pwm c us).duty = r.duty := rfl
@[simp] theorem Regs.pwm_lpos (c : Config) (us : Ticks) (r : Regs) : (r.pwm c us).lpos = r.lpos := rfl
@[simp] theorem Regs.pwm_ltime (c : Config) (us : Ticks) (r : Regs) : (r.pwm c us).ltime = r.ltime := rfl
@[simp] theorem Regs.pwm_base (c : Config) (us : Ticks) (r : Regs) : (r.pwm c us).base = r.base := rfl
@[simp] theorem Regs.pwm_spd (c : Config) (us : Ticks) (r : Regs) : (r.pwm c us).spd = r.spd := rfl
@[simp] theorem Regs.pwm_pa (c : Config) (us : Ticks) (r : Regs) : (r.pwm c us).pa = r.pa := rfl
@[simp] theorem Regs.pwm_pb (c : Config) (us : Ticks) (r : Regs) : (r.pwm c us).pb = r.pb := rfl

theorem Performs.moves_pins {c : Config} {r r' : Regs} {p : Ports} (h : Performs c r p r')
    (hne : r'.pa ≠ r.pa ∨ r'.pb ≠ r.pb) : (∃ d, Carries p (.setdir d)) ∨ Carries p .stop ∨ Carries p .init := by
  cases h with
  | updateIdle => simp at hne
  | updateSlewing => simp at hne
  | enterSlewing => simp at hne
  | enterIdle => simp at hne
  | setdir d hcarries => exact .inl ⟨d, hcarries⟩
  | stop hcarries => exact .inr (.inl hcarries)
  | getspeed => simp at hne
  | init hcarries => exact .inr (.inr hcarries)

/-- Settles O53: a waiting step moves nothing, and a performed command moves an output only where it writes it. -/
theorem outputsMoveOnlyAtListedCommands : Obligations.OutputsMoveOnlyAtListedCommands := by
  intro s t hstep
  rcases step_next_performs hstep with rfl | ⟨p, rest, hp, hperf⟩
  · simp
  · exact ⟨fun hne => ⟨p, rest, hp, hperf.moves_en hne⟩, fun hne => ⟨p, rest, hp, hperf.moves_pins hne⟩⟩

/-! ## The controller registers -/

/-- Two register sets that differ in the outputs at most: EN and the direction pins. -/
def SameLoop (r r' : Regs) : Prop := ∃ en pa pb, r' = { r with en := en, pa := pa, pb := pb }

theorem SameLoop.refl (r : Regs) : SameLoop r r := ⟨r.en, r.pa, r.pb, rfl⟩

theorem SameLoop.trans {r r' r'' : Regs} (h : SameLoop r r') (h' : SameLoop r' r'') : SameLoop r r'' := by
  obtain ⟨_, _, _, rfl⟩ := h
  obtain ⟨en, pa, pb, rfl⟩ := h'
  exact ⟨en, pa, pb, rfl⟩

/-- The commands write the controller registers in three ways only: in an UPDATE in Slewing, on entering Slewing, and on
entering Idle. -/
theorem Performs.loop_cases {c : Config} {r r' : Regs} {p : Ports} (h : Performs c r p r') :
    SameLoop r r' ∨
    (Carries p .update ∧ r.active = true ∧
      r' = (r.sample c (clockPort c.clkW p.msNow) p.pos).pwm c (clockPort c.clkW p.usNow)) ∨
    (Carries p .setslew ∧ 0 < p.rate ∧
      r' = r.enterSlewing p.rate (clockPort c.clkW p.msNow) (clockPort c.clkW p.usNow)) ∨
    ((Carries p .clrslew ∨ (Carries p .setslew ∧ p.rate ≤ 0)) ∧ r' = r.enterIdle) := by
  cases h with
  | updateIdle => exact .inl (.refl r)
  | updateSlewing hcarries hslewing => exact .inr (.inl ⟨hcarries, hslewing, rfl⟩)
  | enterSlewing hcarries hrate => exact .inr (.inr (.inl ⟨hcarries, hrate, rfl⟩))
  | enterIdle hcarries => exact .inr (.inr (.inr ⟨hcarries, rfl⟩))
  | setdir | stop | init => exact .inl ⟨_, _, _, rfl⟩
  | getspeed => exact .inl (.refl r)

section Moves

variable {c : Config} {r r' : Regs} {p : Ports}

theorem Performs.moves_active (h : Performs c r p r') (hne : r'.active ≠ r.active) :
    (Carries p .setslew ∧ 0 < p.rate ∧ r'.active = true) ∨
      ((Carries p .clrslew ∨ (Carries p .setslew ∧ p.rate ≤ 0)) ∧ r'.active = false) := by
  rcases h.loop_cases with ⟨_, _, _, rfl⟩ | ⟨-, -, rfl⟩ | ⟨hcarries, hrate, rfl⟩ | ⟨hcarries, rfl⟩
  · exact absurd rfl hne
  · simp at hne
  · exact .inl ⟨hcarries, hrate, rfl⟩
  · exact .inr ⟨hcarries, rfl⟩

theorem Performs.moves_des (h : Performs c r p r') (hne : r'.des ≠ r.des) :
    (Carries p .setslew ∧ 0 < p.rate ∧ r'.des = p.rate) ∨
      ((Carries p .clrslew ∨ (Carries p .setslew ∧ p.rate ≤ 0)) ∧ r'.des = 0) := by
  rcases h.loop_cases with ⟨_, _, _, rfl⟩ | ⟨-, -, rfl⟩ | ⟨hcarries, hrate, rfl⟩ | ⟨hcarries, rfl⟩
  · exact absurd rfl hne
  · simp at hne
  · exact .inl ⟨hcarries, hrate, rfl⟩
  · exact .inr ⟨hcarries, rfl⟩

/-- The estimator and the controller write DUTY and SPD in a measurement only, and a measurement needs a baseline. -/
theorem Regs.base_of_sample_moves {ms : Ticks} {z : Int}
    (hne : (r.sample c ms z).duty ≠ r.duty ∨ (r.sample c ms z).spd ≠ r.spd) : r.base = true := by
  rcases Regs.sample_cases c ms z r with heq | ⟨-, -, heq⟩ | ⟨hb, -⟩
  · simp [heq] at hne
  · simp [heq] at hne
  · exact hb

theorem Performs.moves_duty (h : Performs c r p r') (hne : r'.duty ≠ r.duty) :
    (Carries p .update ∧ r.active = true ∧ r.base = true) ∨
      ((Carries p .clrslew ∨ (Carries p .setslew ∧ p.rate ≤ 0)) ∧ r'.duty = 1) := by
  rcases h.loop_cases with ⟨_, _, _, rfl⟩ | ⟨hcarries, ha, rfl⟩ | ⟨-, -, rfl⟩ | ⟨hcarries, rfl⟩
  · exact absurd rfl hne
  · exact .inl ⟨hcarries, ha, Regs.base_of_sample_moves (.inl hne)⟩
  · exact absurd rfl hne
  · exact .inr ⟨hcarries, rfl⟩

theorem Performs.moves_spd (h : Performs c r p r') (hne : r'.spd ≠ r.spd) :
    Carries p .update ∧ r.active = true ∧ r.base = true := by
  rcases h.loop_cases with ⟨_, _, _, rfl⟩ | ⟨hcarries, ha, rfl⟩ | ⟨-, -, rfl⟩ | ⟨-, rfl⟩
  · exact absurd rfl hne
  · exact ⟨hcarries, ha, Regs.base_of_sample_moves (.inr hne)⟩
  · exact absurd rfl hne
  · exact absurd rfl hne

/-- At a sampling event the estimator leaves POS, MS_NOW and a valid baseline (rules R65 and R73); at no other UPDATE does
it write these. -/
theorem Regs.sample_bookkeeping (c : Config) (ms : Ticks) (z : Int) (r : Regs) :
    r.sample c ms z = r ∨
      ((r.sample c ms z).lpos = z ∧ (r.sample c ms z).ltime = ms ∧ (r.sample c ms z).base = true) := by
  rcases Regs.sample_cases c ms z r with heq | ⟨-, -, heq⟩ | ⟨hb, -, -, heq⟩
  · exact .inl heq
  · simp [heq]
  · simp [heq, hb]

theorem Performs.moves_lpos (h : Performs c r p r') (hne : r'.lpos ≠ r.lpos) :
    Carries p .update ∧ r.active = true ∧ r'.lpos = p.pos := by
  rcases h.loop_cases with ⟨_, _, _, rfl⟩ | ⟨hcarries, ha, rfl⟩ | ⟨-, -, rfl⟩ | ⟨-, rfl⟩
  · exact absurd rfl hne
  · rcases Regs.sample_bookkeeping c (clockPort c.clkW p.msNow) p.pos r with heq | ⟨hlpos, -, -⟩
    · simp [heq] at hne
    · exact ⟨hcarries, ha, hlpos⟩
  · exact absurd rfl hne
  · exact absurd rfl hne

theorem Performs.moves_base (h : Performs c r p r') (hne : r'.base ≠ r.base) :
    (Carries p .update ∧ r.active = true ∧ r'.base = true) ∨ (Carries p .setslew ∧ 0 < p.rate ∧ r'.base = false) := by
  rcases h.loop_cases with ⟨_, _, _, rfl⟩ | ⟨hcarries, ha, rfl⟩ | ⟨hcarries, hrate, rfl⟩ | ⟨-, rfl⟩
  · exact absurd rfl hne
  · rcases Regs.sample_bookkeeping c (clockPort c.clkW p.msNow) p.pos r with heq | ⟨-, -, hbase⟩
    · simp [heq] at hne
    · exact .inl ⟨hcarries, ha, hbase⟩
  · exact .inr ⟨hcarries, hrate, rfl⟩
  · exact absurd rfl hne

theorem Performs.moves_ltime (h : Performs c r p r') (hne : r'.ltime ≠ r.ltime) :
    ((Carries p .update ∧ r.active = true) ∨ (Carries p .setslew ∧ 0 < p.rate)) ∧
      r'.ltime = p.msNow % 2 ^ c.clkW := by
  rcases h.loop_cases with ⟨_, _, _, rfl⟩ | ⟨hcarries, ha, rfl⟩ | ⟨hcarries, hrate, rfl⟩ | ⟨-, rfl⟩
  · exact absurd rfl hne
  · rcases Regs.sample_bookkeeping c (clockPort c.clkW p.msNow) p.pos r with heq | ⟨-, hltime, -⟩
    · simp [heq] at hne
    · exact ⟨.inl ⟨hcarries, ha⟩, hltime⟩
  · exact ⟨.inr ⟨hcarries, hrate⟩, rfl⟩
  · exact absurd rfl hne

theorem Performs.moves_cstart (h : Performs c r p r') (hne : r'.cstart ≠ r.cstart) :
    (Carries p .update ∧ r.active = true) ∨
      (Carries p .setslew ∧ 0 < p.rate ∧ r'.cstart = p.usNow % 2 ^ c.clkW) := by
  rcases h.loop_cases with ⟨_, _, _, rfl⟩ | ⟨hcarries, ha, rfl⟩ | ⟨hcarries, hrate, rfl⟩ | ⟨-, rfl⟩
  · exact absurd rfl hne
  · exact .inl ⟨hcarries, ha⟩
  · exact .inr ⟨hcarries, hrate, rfl⟩
  · exact absurd rfl hne

end Moves

/-- Settles O54: a waiting step moves nothing, and a performed command moves a register only where it writes it. -/
theorem loopRegistersMoveOnlyAtListedCommands : Obligations.LoopRegistersMoveOnlyAtListedCommands := by
  intro s t hstep
  rcases step_next_performs hstep with rfl | ⟨p, rest, hp, h⟩
  · simp
  · exact ⟨fun hne => ⟨p, rest, hp, h.moves_active hne⟩, fun hne => ⟨p, rest, hp, h.moves_des hne⟩,
      fun hne => ⟨p, rest, hp, h.moves_duty hne⟩, fun hne => ⟨p, rest, hp, h.moves_spd hne⟩,
      fun hne => ⟨p, rest, hp, h.moves_lpos hne⟩, fun hne => ⟨p, rest, hp, h.moves_base hne⟩,
      fun hne => ⟨p, rest, hp, h.moves_ltime hne⟩, fun hne => ⟨p, rest, hp, h.moves_cstart hne⟩⟩

/-! ## Idle with EN low (rule R34(g)) -/

/-- The state of rule R34(g): Idle with the enable output low. -/
def IdleAndLow (r : Regs) : Prop := r.active = false ∧ r.en = false

theorem Regs.reset_not_idleAndLow : ¬IdleAndLow Regs.reset := fun h => by cases h.2

/-- A command that leaves the block in Idle with EN low is a STOP, or it found it so and does not restore EN. -/
theorem Performs.idleAndLow_cases {c : Config} {r r' : Regs} {p : Ports} (h : Performs c r p r')
    (hlow : IdleAndLow r') : Carries p .stop ∨ (IdleAndLow r ∧ ¬RestoresEnable p) := by
  have hkeeps {i : Instr} (hcarries : Carries p i) (hclr : i ≠ .clrslew) (hset : i ≠ .setslew) (hinit : i ≠ .init) :
      ¬RestoresEnable p := by
    rintro (hq | ⟨hq, -⟩ | hq)
    · exact hclr (carries_unique hcarries hq)
    · exact hset (carries_unique hcarries hq)
    · exact hinit (carries_unique hcarries hq)
  obtain ⟨hidle, hen⟩ := hlow
  cases h with
  | updateIdle hcarries => exact .inr ⟨⟨hidle, hen⟩, hkeeps hcarries (by decide) (by decide) (by decide)⟩
  | updateSlewing _ hslewing => simp [hslewing] at hidle
  | enterSlewing => simp at hidle
  | enterIdle => simp at hen
  | setdir d hcarries => exact .inr ⟨⟨hidle, hen⟩, hkeeps hcarries (by simp) (by simp) (by simp)⟩
  | stop hcarries => exact .inl hcarries
  | getspeed hcarries => exact .inr ⟨⟨hidle, hen⟩, hkeeps hcarries (by decide) (by decide) (by decide)⟩
  | init => simp at hen

/-- A run that ends in Idle with EN low started so and restored EN nowhere, or holds a STOP behind which nothing did. -/
theorem run_idleAndLow_cases {s t : State} {ps : List Ports} (hp : s.pending = ps)
    (hrun : Host.Core.run core ps.length s = .next t) (hlow : IdleAndLow t.regs) :
    (IdleAndLow s.regs ∧ ∀ q ∈ ps, ¬RestoresEnable q) ∨
      ∃ before p after, ps = before ++ p :: after ∧ Carries p .stop ∧ ∀ q ∈ after, ¬RestoresEnable q := by
  induction ps generalizing s with
  | nil =>
    cases hrun
    exact .inl ⟨hlow, by simp⟩
  | cons p ps ih =>
    obtain ⟨u, hstep, hrest⟩ := run_succ_next_cases hrun
    obtain ⟨hpending, hperf⟩ := step_performs hstep hp
    rcases ih hpending hrest with ⟨hmid, hkept⟩ | ⟨before, q, after, rfl, hstop, hkept⟩
    · rcases hperf.idleAndLow_cases hmid with hstop | ⟨hstart, hkeeps⟩
      · exact .inr ⟨[], p, ps, rfl, hstop, hkept⟩
      · exact .inl ⟨hstart, List.forall_mem_cons.mpr ⟨hkeeps, hkept⟩⟩
    · exact .inr ⟨p :: before, q, after, rfl, hstop, hkept⟩

/-- Settles O56: reset drives EN, so the run did not start in Idle with EN low. -/
theorem idleWithEnableLowOnlyAfterStop : Obligations.IdleWithEnableLowOnlyAfterStop := by
  intro c ps t _ hrun hidle hen
  rcases run_idleAndLow_cases (s := { State.resetUnder c with pending := ps }) rfl hrun ⟨hidle, hen⟩ with ⟨hstart, -⟩ | hstop
  · exact absurd hstart Regs.reset_not_idleAndLow
  · exact hstop

end Sys2Proof.Machine

/-! SUPPORT. UPDATE beside the other commands (rules R60, R62 and R63): what it does not look at and does not write. -/

namespace Sys2Proof.Machine

open Sys2Proof.Safety

theorem exec_update (s : State) :
    exec .update s = .next (s.withRegs (s.regs.update s.cfg s.msNow s.usNow s.pos)) := rfl

/-! ## The direction pins and UPDATE -/

@[simp] theorem Regs.sample_en (c : Config) (ms : Ticks) (z : Int) (r : Regs) : (r.sample c ms z).en = r.en := by
  rcases Regs.sample_cases c ms z r with h | ⟨-, -, h⟩ | ⟨-, -, -, h⟩ <;> simp [h]

theorem Regs.sample_driveDirection (c : Config) (ms : Ticks) (z : Int) (r : Regs) (d : Direction) :
    (r.driveDirection d).sample c ms z = (r.sample c ms z).driveDirection d := by
  refine (Regs.sample_outputs c ms z r r.en (Direction.pa d) (Direction.pb d)).trans ?_
  rw [Regs.driveDirection, Regs.sample_en]

/-- UPDATE neither looks at the direction pins nor writes them (rule R60). -/
theorem Regs.update_driveDirection (c : Config) (ms us : Ticks) (z : Int) (r : Regs) (d : Direction) :
    (r.driveDirection d).update c ms us z = (r.update c ms us z).driveDirection d := by
  cases ha : r.active with
  | false =>
    have ha' : (r.driveDirection d).active = false := ha
    rw [Regs.update_idle c ms us z ha, Regs.update_idle c ms us z ha']
  | true =>
    have ha' : (r.driveDirection d).active = true := ha
    rw [Regs.update_slewing c ms us z ha, Regs.update_slewing c ms us z ha', Regs.sample_driveDirection]
    rfl

/-- Settles O25: each of the two is blind to what the other writes. -/
theorem setdirCommutesWithUpdate : Obligations.SetdirCommutesWithUpdate := by
  intro d s t u hset hupdate
  cases hset
  cases hupdate
  refine ⟨_, exec_update s, ?_⟩
  have hcomm := Regs.update_driveDirection s.cfg s.msNow s.usNow s.pos s.regs d
  exact congrArg (fun r => Host.Outcome.next (s.withRegs r)) hcomm.symm

/-- In Slewing UPDATE drives EN anew, so what STOP did to EN is undone (rule R62). -/
theorem Regs.update_of_outputs (c : Config) (ms us : Ticks) (z : Int) {r : Regs} (en pa pb : Bit)
    (h : r.active = true) :
    Regs.update c ms us z { r with en := en, pa := pa, pb := pb } = { r.update c ms us z with pa := pa, pb := pb } := by
  have hslewing : Regs.active { r with en := en, pa := pa, pb := pb } = true := h
  rw [Regs.update_slewing c ms us z h, Regs.update_slewing c ms us z hslewing, Regs.sample_outputs]
  rfl

/-- Settles O26: STOP writes output registers only, and of those UPDATE in Slewing keeps the pins alone. -/
theorem stopDoesNotLeaveSlewing : Obligations.StopDoesNotLeaveSlewing := by
  intro s t u v ha hstop hbehind hwithout
  cases hstop
  cases hbehind
  cases hwithout
  have hregs := Regs.update_of_outputs s.cfg s.msNow s.usNow s.pos false false false ha
  refine ⟨congrArg (fun r => s.withRegs r) hregs, ?_⟩
  exact (Regs.update_active ..).trans ha

/-! ## The frame of UPDATE -/

@[simp] theorem Regs.update_des (c : Config) (ms us : Ticks) (z : Int) (r : Regs) :
    (r.update c ms us z).des = r.des := by
  cases ha : r.active with
  | false => rw [Regs.update_idle c ms us z ha]
  | true => rw [Regs.update_slewing c ms us z ha, Regs.pwm_des, Regs.sample_des]

@[simp] theorem Regs.update_pa (c : Config) (ms us : Ticks) (z : Int) (r : Regs) : (r.update c ms us z).pa = r.pa := by
  cases ha : r.active with
  | false => rw [Regs.update_idle c ms us z ha]
  | true => rw [Regs.update_slewing c ms us z ha, Regs.pwm_pa, Regs.sample_pa]

@[simp] theorem Regs.update_pb (c : Config) (ms us : Ticks) (z : Int) (r : Regs) : (r.update c ms us z).pb = r.pb := by
  cases ha : r.active with
  | false => rw [Regs.update_idle c ms us z ha]
  | true => rw [Regs.update_slewing c ms us z ha, Regs.pwm_pb, Regs.sample_pb]

/-- Settles O31: UPDATE replaces the registers, and keeps four of them. -/
theorem updateFrame : Obligations.UpdateFrame := by
  intro s t h
  cases h
  rw [State.withRegs_regs, State.withRegs, State.mk.injEq, Regs.mk.injEq]
  simp

/-! ## The kinds of UPDATE in Slewing -/

/-- Settles O28: the sampling event is the baseline, and the PWM stage runs on the unchanged duty. -/
theorem updateTakesBaseline : Obligations.UpdateTakesBaseline := by
  intro s ha hb
  have hsample := Regs.sample_of_baseline s.pos (Regs.sampling_baseline s.cfg s.msNow ha hb)
  have hpwm := Regs.pwmLeaves_pwm s.cfg s.ports.usNow (s.regs.sample s.cfg s.msNow s.pos)
  have hexec := exec_update_of_slewing ha
  rw [hsample] at hpwm hexec
  exact ⟨_, _, hpwm, hexec⟩

/-- Settles O29: there is no sampling event, and the PWM stage runs on the registers as they were. -/
theorem updateWithGateClosed : Obligations.UpdateWithGateClosed := by
  intro s dt ha hb hdt hgate
  have hclosed : clockSub s.cfg.clkW s.msNow s.regs.ltime < s.cfg.sampleMs :=
    (clockSub_clockPort_eq_of_elapsedIs hdt).trans_lt hgate
  have hsample := Regs.sample_of_skip s.pos (Regs.sampling_closed hb hclosed)
  have hpwm := Regs.pwmLeaves_pwm s.cfg s.ports.usNow (s.regs.sample s.cfg s.msNow s.pos)
  have hexec := exec_update_of_slewing ha
  rw [hsample] at hpwm hexec
  exact ⟨_, _, hpwm, hexec⟩

/-! ## The duty controller (rules R71, R72 and R109) -/

/-- UPDATE leaves DUTY and SPD, or it is a measurement that sets DUTY by the proportional law on the new SPD. -/
theorem Regs.update_duty_cases (c : Config) (ms us : Ticks) (z : Int) (r : Regs) :
    ((r.update c ms us z).duty = r.duty ∧ (r.update c ms us z).spd = r.spd) ∨
      (r.active = true ∧ r.base = true ∧ c.sampleMs ≤ clockSub c.clkW ms r.ltime ∧
        (r.update c ms us z).duty = r.nextDuty c (r.update c ms us z).spd) := by
  cases ha : r.active with
  | false => simp [Regs.update_idle c ms us z ha]
  | true =>
    rw [Regs.update_slewing c ms us z ha, Regs.pwm_duty, Regs.pwm_spd]
    rcases Regs.sample_cases c ms z r with h | ⟨-, -, h⟩ | ⟨hb, -, hgate, h⟩
    · simp [h]
    · simp [h]
    · exact .inr ⟨rfl, hb, hgate, by rw [h, Regs.recordMeasurement_duty, Regs.recordMeasurement_spd]⟩

/-- UPDATE leaves DUTY, or it sets it by the proportional law on the new SPD. -/
theorem exec_update_duty {s t : State} (h : exec .update s = .next t) :
    t.regs.duty = s.regs.duty ∨ t.regs.duty = clamp01 (s.regs.duty + s.cfg.kp * (s.regs.des - t.regs.spd)) := by
  cases h
  rcases Regs.update_duty_cases s.cfg s.msNow s.usNow s.pos s.regs with ⟨hduty, -⟩ | ⟨-, -, -, hduty⟩
  · exact .inl hduty
  · exact .inr hduty

/-- Settles O41: the law adds nothing to the duty, and the clamp leaves it. -/
theorem zeroErrorKeepsDuty : Obligations.ZeroErrorKeepsDuty := by
  intro s t h0 h1 hexec hspd
  rcases exec_update_duty hexec with hduty | hduty
  · exact hduty
  · rw [hduty, hspd, sub_self, mul_zero, add_zero, clamp01_of_mem h0 h1]

/-- Settles O42: the law adds nothing to the duty, and the clamp leaves it. -/
theorem zeroGainKeepsDuty : Obligations.ZeroGainKeepsDuty := by
  intro s t h0 h1 hkp hexec
  rcases exec_update_duty hexec with hduty | hduty
  · exact hduty
  · rw [hduty, hkp, zero_mul, add_zero, clamp01_of_mem h0 h1]

/-- Settles O43: the law pushes the duty beyond the clamp, which brings it back. -/
theorem dutyHoldsAtTheClamp : Obligations.DutyHoldsAtTheClamp := by
  intro s t hkp hexec
  refine ⟨fun hone hslow => ?full, fun hzero hfast => ?none⟩
  case full =>
    have hpush : 0 ≤ s.cfg.kp * (s.regs.des - t.regs.spd) := mul_nonneg hkp (sub_nonneg.mpr hslow)
    rcases exec_update_duty hexec with hduty | hduty
    · exact hduty.trans hone
    · rw [hduty, hone, clamp01_of_one_le (le_add_of_nonneg_right hpush)]
  case none =>
    have hpush : s.cfg.kp * (s.regs.des - t.regs.spd) ≤ 0 := mul_nonpos_of_nonneg_of_nonpos hkp (sub_nonpos.mpr hfast)
    rcases exec_update_duty hexec with hduty | hduty
    · exact hduty.trans hzero
    · rw [hduty, hzero, zero_add, clamp01_of_nonpos hpush]

/-- Settles O44: every other UPDATE leaves both registers. -/
theorem dutyMovesOnlyAtMeasurement : Obligations.DutyMovesOnlyAtMeasurement := by
  intro s t dt hexec hne hdt
  cases hexec
  have helapsed : clockSub s.cfg.clkW s.msNow s.regs.ltime = dt := clockSub_clockPort_eq_of_elapsedIs hdt
  rcases Regs.update_duty_cases s.cfg s.msNow s.usNow s.pos s.regs with ⟨hduty, hspd⟩ | ⟨ha, hb, hgate, -⟩
  · exact absurd hne (by simp [hduty, hspd])
  · exact ⟨ha, hb, helapsed ▸ hgate⟩

/-! ## The wrap correction (rules R68 and R107) -/

/-- Settles O40, clause by clause: the kept delta, the correction on each side, and how far one correction brings it. -/
theorem wrapCorrectionIsAppliedOnce : Obligations.WrapCorrectionIsAppliedOnce := by
  intro range d hrange
  have hkept (h : 2 * |d| ≤ range) : wrapDelta range d = d := wrapDelta_eq_of_correctedIs (.inl ⟨h, rfl⟩)
  have hdown (h : range < 2 * |d|) (hd : 0 < d) : wrapDelta range d = d - range :=
    wrapDelta_eq_of_correctedIs (.inr (.inl ⟨h, hd, rfl⟩))
  have hup (h : range < 2 * |d|) (hd : d < 0) : wrapDelta range d = d + range :=
    wrapDelta_eq_of_correctedIs (.inr (.inr ⟨h, hd, rfl⟩))
  refine ⟨hkept, hdown, hup, fun hnear => ?near, fun hfar => ?far⟩
  case near =>
    rcases le_or_gt (2 * |d|) range with hle | hlt
    · rw [hkept hle]
      exact hle
    · rcases lt_trichotomy d 0 with hd | rfl | hd
      · rw [hup hlt hd]
        rw [abs_of_neg hd] at hnear hlt
        have hhalf : |d + range| ≤ range / 2 := abs_le.mpr ⟨by omega, by omega⟩
        omega
      · rw [abs_zero] at hlt
        omega
      · rw [hdown hlt hd]
        rw [abs_of_pos hd] at hnear hlt
        have hhalf : |d - range| ≤ range / 2 := abs_le.mpr ⟨by omega, by omega⟩
        omega
  case far =>
    have hlt : range < 2 * |d| := by omega
    rcases lt_trichotomy d 0 with hd | rfl | hd
    · rw [hup hlt hd]
      rw [abs_of_neg hd] at hfar
      have habs := neg_le_abs (d + range)
      omega
    · rw [abs_zero] at hlt
      omega
    · rw [hdown hlt hd]
      rw [abs_of_pos hd] at hfar
      have habs := le_abs_self (d - range)
      omega

/-- Two bearings of the calibrated range are at most one range apart, so a motion of less than half the range is what the
one correction leaves of their delta. -/
theorem correctedIs_of_motion {range raw motion turns : Int} (hraw : raw = motion + turns * range)
    (hle : |raw| ≤ range) (hmotion : 2 * |motion| < range) : CorrectedIs range raw motion := by
  obtain ⟨hm1, hm2⟩ := abs_le.mp (le_refl |motion|)
  obtain ⟨hr1, hr2⟩ := abs_le.mp hle
  have hturns : turns = -1 ∨ turns = 0 ∨ turns = 1 := by
    have hlow : -2 < turns := by
      by_contra h
      have hfar : turns * range ≤ -2 * range := mul_le_mul_of_nonneg_right (by omega) (by omega)
      omega
    have hhigh : turns < 2 := by
      by_contra h
      have hfar : 2 * range ≤ turns * range := mul_le_mul_of_nonneg_right (by omega) (by omega)
      omega
    omega
  rcases hturns with rfl | rfl | rfl
  · have habs := neg_le_abs raw
    exact .inr (.inr ⟨by omega, by omega, by omega⟩)
  · exact .inl ⟨by rw [hraw, zero_mul, add_zero]; omega, by omega⟩
  · have habs := le_abs_self raw
    exact .inr (.inl ⟨by omega, by omega, by omega⟩)

/-- Settles O39: the corrected delta is the motion, and UPDATE measures its speed. -/
theorem wrapCorrectionRecoversMotion : Obligations.WrapCorrectionRecoversMotion := by
  intro s t dt motion turns _ ha hb hdt hgate hmin hmax hmin' hmax' hpos hmotion hexec
  have hraw : s.ports.pos - s.regs.lpos = motion + turns * (s.cfg.degMax - s.cfg.degMin) := by omega
  have hle : |s.ports.pos - s.regs.lpos| ≤ s.cfg.degMax - s.cfg.degMin := abs_le.mpr ⟨by omega, by omega⟩
  obtain ⟨spd, duty, cstart, en, hspd, -, -, hmeasured⟩ :=
    updateMeasures s dt motion ha hb hdt hgate (correctedIs_of_motion hraw hle hmotion)
  cases hexec.symm.trans hmeasured
  rw [hspd, abs_div, abs_mul, Nat.abs_cast]
  norm_num

end Sys2Proof.Machine

/-! SUPPORT. The clocks and the PWM stage (rules R14, R74 to R78, R105 and R106): elapsed times, the catch-up of the cycle
start by whole periods, and the drift-free schedule it keeps. -/

namespace Sys2Proof.Machine

open Sys2Proof.Safety

/-! ## Elapsed times -/

@[simp] theorem clockSub_self (w a : Nat) : clockSub w a a = 0 := clockSub_unique (two_pow_pos w) rfl

/-- The elapsed time between two values of an unwrapped clock is the gap modulo the clock span (rule R105). -/
theorem clockSub_mod_of_le (w : Nat) {a u : Nat} (h : a ≤ u) : clockSub w (u % 2 ^ w) (a % 2 ^ w) = (u - a) % 2 ^ w := by
  apply clockSub_unique (Nat.mod_lt _ (two_pow_pos w))
  rw [← Nat.add_mod, Nat.add_sub_cancel' h, Nat.mod_mod]

/-- Settles O57: the gap modulo the clock span, and a step back by `k` as a gap of `2 ^ w - k`. -/
theorem elapsedTimeAliases : Obligations.ElapsedTimeAliases := by
  refine ⟨fun w start gap => ?forward, fun w now k hpos hle hlt => ?back⟩
  case forward => rw [clockSub_mod_of_le w (Nat.le_add_right start gap), Nat.add_sub_cancel_left]
  case back =>
    have hsum : now + (2 ^ w - k) = (now - k) + 2 ^ w := by omega
    exact clockSub_unique (by omega) (by rw [hsum, Nat.add_mod_right])

/-- Settles O58: the difference is the one value that added to the subtrahend gives the minuend. -/
theorem clockArithmetic : Obligations.ClockArithmetic := by
  intro w a b ha hb
  refine ⟨clockSub_lt w a b, ?added, ?subtracted, ?integer⟩
  case added => rw [clockAdd, add_clockSub_mod, Nat.mod_eq_of_lt ha]
  case subtracted => exact clockSub_unique ha (by rw [clockAdd, Nat.mod_mod, Nat.add_comm])
  case integer => rw [clockSub_cast, Nat.cast_pow, Nat.cast_ofNat]

/-! ## The catch-up -/

/-- The cycle start that the PWM stage at `us` leaves, given the one before (rules R74 and R75). -/
def catchUp (c : Config) (cs us : Ticks) : Ticks := caughtUpStart c cs (clockSub c.clkW us cs)

theorem Regs.pwm_cstart (c : Config) (us : Ticks) (r : Regs) : (r.pwm c us).cstart = catchUp c r.cstart us := rfl

/-- The catch-up leaves the in-cycle time: the elapsed time modulo the period (rule R75). -/
theorem clockSub_catchUp (c : Config) (cs us : Ticks) :
    clockSub c.clkW us (catchUp c cs us) = clockSub c.clkW us cs % c.periodUs := by
  have hmod : (cs + clockSub c.clkW us cs) % 2 ^ c.clkW = us % 2 ^ c.clkW := add_clockSub_mod c.clkW us cs
  have hlt := clockSub_lt c.clkW us cs
  unfold catchUp
  generalize clockSub c.clkW us cs = e at hmod hlt ⊢
  apply clockSub_unique ((Nat.mod_le _ _).trans_lt hlt)
  rcases Nat.lt_or_ge e c.periodUs with hshort | hlong
  · rw [caughtUpStart_of_lt hshort, Nat.mod_eq_of_lt hshort, hmod]
  · rw [caughtUpStart_of_le hlong, Nat.mod_add_mod, Nat.add_assoc, Nat.div_add_mod', hmod]

/-- Settles O32: the time from the new cycle start is a remainder by the period. -/
theorem cycleStartWithinOnePeriod : Obligations.CycleStartWithinOnePeriod := by
  intro s t e hc ha hexec he
  obtain ⟨-, -, -, hperiod, -⟩ := hc
  rw [exec_update_of_slewing ha] at hexec
  cases hexec
  have helapsed := clockSub_clockPort_eq_of_elapsedIs he
  rw [State.withRegs_regs, Regs.pwm_cstart, State.usNow, clockSub_catchUp] at helapsed
  exact helapsed ▸ Nat.mod_lt _ hperiod

/-- For a duty in [0, 1] and an in-cycle time below the period the forced levels of EN are the comparison too (rule R77). -/
theorem enableLevel_iff_lt {c : Config} {duty : Rat} {e : Ticks} (h0 : 0 ≤ duty) (h1 : duty ≤ 1) (he : e < c.periodUs) :
    enableLevel c duty e = true ↔ (e : Rat) < duty * (c.periodUs : Rat) := by
  rcases h0.eq_or_lt with rfl | hpos
  · simp [enableLevel_zero]
  rcases h1.eq_or_lt with rfl | hlt
  · simp [enableLevel_of_one_le e le_rfl, he]
  · exact enableLevel_eq_true_iff e hpos.ne' hlt

theorem Regs.pwm_en (c : Config) (us : Ticks) (r : Regs) :
    (r.pwm c us).en = enableLevel c r.duty (clockSub c.clkW us r.cstart % c.periodUs) :=
  congrArg (enableLevel c r.duty) (caughtUpElapsed_eq_mod c _)

/-- Settles O33: the time from the new cycle start is the in-cycle time, and the invariant keeps the new duty in
[0, 1]. -/
theorem enableIsOneComparison : Obligations.EnableIsOneComparison := by
  intro s t e hinv ha hexec he
  obtain ⟨⟨-, -, -, hperiod, -⟩, -, hlegal, -⟩ := hinv
  rw [exec_update_of_slewing ha] at hexec
  cases hexec
  obtain ⟨⟨h0, h1⟩, -⟩ := Regs.sample_keeps_legal s.cfg s.msNow s.pos hlegal
  have helapsed := clockSub_clockPort_eq_of_elapsedIs he
  rw [State.withRegs_regs, Regs.pwm_cstart, State.usNow, clockSub_catchUp] at helapsed
  subst helapsed
  rw [State.withRegs_regs, Regs.pwm_en, Regs.pwm_duty]
  exact enableLevel_iff_lt h0 h1 (Nat.mod_lt _ hperiod)

/-! ## The same UPDATE again (rule R80(j)) -/

/-- Behind an UPDATE at `ms` there is no sampling event at `ms`: SAMPLE_MS is at least 1. -/
theorem Regs.sampling_sample {c : Config} (ms : Ticks) (z : Int) (r : Regs) (h : 1 ≤ c.sampleMs) :
    (r.sample c ms z).sampling c ms = .skip := by
  rcases Regs.sampling_cases c ms r with ⟨hskip, -⟩ | ⟨hbase, -, -⟩ | ⟨hmeasured, -, hb, -⟩
  · rw [Regs.sample_of_skip z hskip, hskip]
  · rw [Regs.sample_of_baseline z hbase]
    exact Regs.sampling_closed rfl ((clockSub_self ..).trans_lt h)
  · rw [Regs.sample_of_measurement z hmeasured]
    exact Regs.sampling_closed hb ((clockSub_self ..).trans_lt h)

theorem Regs.sampling_pwm (c : Config) (ms us : Ticks) (r : Regs) : (r.pwm c us).sampling c ms = r.sampling c ms := rfl

theorem catchUp_catchUp {c : Config} (cs us : Ticks) (h : 1 ≤ c.periodUs) :
    catchUp c (catchUp c cs us) us = catchUp c cs us := by
  rw [catchUp, clockSub_catchUp]
  exact caughtUpStart_of_lt (Nat.mod_lt _ h)

theorem Regs.pwm_eq_recordPwm (c : Config) (us : Ticks) (r : Regs) :
    r.pwm c us =
      r.recordPwm (catchUp c r.cstart us) (enableLevel c r.duty (clockSub c.clkW us r.cstart % c.periodUs)) := by
  rw [← Regs.pwm_en]
  rfl

theorem Regs.pwm_pwm {c : Config} (us : Ticks) (r : Regs) (h : 1 ≤ c.periodUs) :
    (r.pwm c us).pwm c us = r.pwm c us := by
  rw [Regs.pwm_eq_recordPwm c us (r.pwm c us), Regs.pwm_cstart, Regs.pwm_duty, catchUp_catchUp _ _ h, clockSub_catchUp,
    Nat.mod_mod, Regs.pwm_eq_recordPwm]
  rfl

/-- Settles O38: the second UPDATE samples nothing, and the PWM stage finds the cycle start caught up. -/
theorem repeatedUpdateChangesNothing : Obligations.RepeatedUpdateChangesNothing := by
  intro s t hc hexec
  obtain ⟨-, hsample, -, hperiod, -⟩ := hc
  cases ha : s.regs.active with
  | false =>
    cases (exec_update_of_idle ha).symm.trans hexec
    exact hexec
  | true =>
    cases (exec_update_of_slewing ha).symm.trans hexec
    have hskip : ((s.regs.sample s.cfg s.msNow s.pos).pwm s.cfg s.usNow).sampling s.cfg s.msNow = .skip :=
      (Regs.sampling_pwm ..).trans (Regs.sampling_sample s.msNow s.pos s.regs hsample)
    rw [exec_update_of_slewing (by simpa using ha)]
    simp only [State.withRegs_regs, State.withRegs_cfg, State.withRegs_msNow_shown, State.withRegs_usNow_shown,
      State.withRegs_pos_shown, State.withRegs_withRegs]
    rw [Regs.sample_of_skip _ hskip, Regs.pwm_pwm _ _ hperiod]

/-! ## The schedule of rule R78 -/

/-- From a point `a` of an unwrapped clock the catch-up goes by the whole periods in the gap modulo the clock span
(rules R75 and R105). -/
theorem catchUp_of_le (c : Config) {a u : Nat} (h : a ≤ u) :
    catchUp c (a % c.clockSpan) (clockPort c.clkW u) =
      (a + (u - a) % c.clockSpan / c.periodUs * c.periodUs) % c.clockSpan := by
  have helapsed : clockSub c.clkW (clockPort c.clkW u) (a % c.clockSpan) = (u - a) % c.clockSpan :=
    clockSub_mod_of_le c.clkW h
  rw [catchUp, helapsed]
  generalize (u - a) % c.clockSpan = e
  rcases Nat.lt_or_ge e c.periodUs with hshort | hlong
  · rw [caughtUpStart_of_lt hshort, Nat.div_eq_of_lt hshort, Nat.zero_mul, Nat.add_zero]
  · rw [caughtUpStart_of_le hlong, Config.clockSpan, Nat.mod_add_mod]

/-- The catch-up goes from a point of the schedule to a point not after its own time, whatever the gap (rule R78(b)). -/
theorem atPoint_catchUp {c : Config} {start now k u : Nat} {cs : Ticks} (hcs : AtPoint c start now k cs)
    (hnow : now ≤ u) :
    AtPoint c start u (k + (u - (start + k * c.periodUs)) % c.clockSpan / c.periodUs)
      (catchUp c cs (clockPort c.clkW u)) := by
  obtain ⟨rfl, hle⟩ := hcs
  have hperiods := Nat.div_mul_le_self ((u - (start + k * c.periodUs)) % c.clockSpan) c.periodUs
  have hgap := Nat.mod_le (u - (start + k * c.periodUs)) c.clockSpan
  rw [catchUp_of_le c (hle.trans hnow), AtPoint, Nat.add_mul, ← Nat.add_assoc]
  exact ⟨rfl, by omega⟩

/-- Less than the clock span after its point the catch-up finds the last point not after its own time (rules R78(b) and
R105). -/
theorem onSchedule_catchUp {c : Config} {start now k u : Nat} {cs : Ticks} (hperiod : 1 ≤ c.periodUs)
    (hcs : AtPoint c start now k cs) (hnow : now ≤ u) (hspan : u < start + k * c.periodUs + c.clockSpan) :
    OnSchedule c start u (catchUp c cs (clockPort c.clkW u)) := by
  obtain ⟨-, hle⟩ := id hcs
  have hpoint := atPoint_catchUp hcs hnow
  rw [Nat.mod_eq_of_lt (show u - (start + k * c.periodUs) < c.clockSpan by omega)] at hpoint
  refine ⟨_, hpoint, ?_⟩
  have hlt := Nat.lt_div_mul_add (a := u - (start + k * c.periodUs)) hperiod
  rw [Nat.add_mul, Nat.add_mul, Nat.one_mul]
  omega

/-! ## The cycle start over a run -/

/-- In Slewing a command that keeps the loop keeps Slewing, and moves the cycle start in an UPDATE only, by the
catch-up. -/
theorem Performs.keepsLoop {c : Config} {r r' : Regs} {p : Ports} (h : Performs c r p r') (hkeeps : KeepsLoop p)
    (ha : r.active = true) :
    r'.active = true ∧ ((Carries p .update ∧ r'.cstart = catchUp c r.cstart (clockPort c.clkW p.usNow)) ∨
      (¬Carries p .update ∧ r'.cstart = r.cstart)) := by
  obtain ⟨i, hi, hset, hclr⟩ := hkeeps
  cases h with
  | updateIdle _ hidle => simp [ha] at hidle
  | updateSlewing hcarries => exact ⟨by simpa using ha, .inl ⟨hcarries, by rw [Regs.pwm_cstart, Regs.sample_cstart]⟩⟩
  | enterSlewing hcarries => exact absurd (carries_unique hi hcarries) hset
  | enterIdle hcarries =>
    rcases hcarries with hcarries | ⟨hcarries, -⟩
    · exact absurd (carries_unique hi hcarries) hclr
    · exact absurd (carries_unique hi hcarries) hset
  | setdir _ hcarries | stop hcarries | getspeed hcarries | init hcarries =>
    exact ⟨ha, .inr ⟨fun hupdate => (nomatch carries_unique hupdate hcarries), rfl⟩⟩

/-- Settles O34: an UPDATE catches up, and every other such command leaves the cycle start at its point. -/
theorem everyStepKeepsSchedule : Obligations.EveryStepKeepsSchedule := by
  intro s t start now k p rest hc ha hp hkeeps hpoint hlast hstep
  obtain ⟨-, -, -, hperiod, -⟩ := hc
  obtain ⟨-, hperf⟩ := step_performs hstep hp
  obtain ⟨hactive, hmove⟩ := hperf.keepsLoop hkeeps ha
  refine ⟨hactive, step_keeps_cfg hstep, fun hother => ?other, fun hupdate hnow hspan => ?update⟩
  case other =>
    obtain ⟨hupdate, -⟩ | ⟨-, hcstart⟩ := hmove
    · exact absurd hupdate hother
    · exact ⟨hcstart, k, hcstart ▸ hpoint, hlast⟩
  case update =>
    obtain ⟨-, hcstart⟩ | ⟨hother, -⟩ := hmove
    · exact hcstart ▸ onSchedule_catchUp hperiod hpoint hnow hspan
    · exact absurd hupdate hother

/-- The cycle start after UPDATEs at the times `us`, one behind the other. -/
def catchUpAll (c : Config) : (us : List Nat) → Ticks → Ticks
  | [], cs => cs
  | u :: us, cs => catchUpAll c us (catchUp c cs (clockPort c.clkW u))

theorem updateTimes_of_update {p : Ports} (ps : List Ports) (h : Carries p .update) :
    updateTimes (p :: ps) = p.usNow :: updateTimes ps := by
  rw [updateTimes, h]

theorem updateTimes_of_other {p : Ports} (ps : List Ports) (h : ¬Carries p .update) :
    updateTimes (p :: ps) = updateTimes ps := by
  cases hd : decode p.cmd with
  | error => rw [updateTimes, hd]
  | ok i =>
    cases i with
    | update => exact absurd hd h
    | _ => rw [updateTimes, hd]

/-- A run over commands that keep the loop moves the cycle start by the catch-ups of its UPDATEs. -/
theorem run_cstart {s t : State} {ps : List Ports} (hp : s.pending = ps) (ha : s.regs.active = true)
    (hkeeps : ∀ q ∈ ps, KeepsLoop q) (hrun : Host.Core.run core ps.length s = .next t) :
    t.regs.cstart = catchUpAll s.cfg (updateTimes ps) s.regs.cstart := by
  induction ps generalizing s with
  | nil =>
    cases hrun
    rfl
  | cons p ps ih =>
    obtain ⟨hkeepsp, hkeepsps⟩ := List.forall_mem_cons.mp hkeeps
    obtain ⟨u, hstep, hrest⟩ := run_succ_next_cases hrun
    obtain ⟨hpending, hperf⟩ := step_performs hstep hp
    obtain ⟨hactive, hmove⟩ := hperf.keepsLoop hkeepsp ha
    rw [ih hpending hactive hkeepsps hrest, step_keeps_cfg hstep]
    obtain ⟨hupdate, hcstart⟩ | ⟨hother, hcstart⟩ := hmove
    · rw [updateTimes_of_update ps hupdate, hcstart, catchUpAll]
    · rw [updateTimes_of_other ps hother, hcstart]

/-- SETSLEW with a positive rate enters Slewing (rule R81). -/
theorem Performs.of_setslew {c : Config} {r r' : Regs} {p : Ports} (h : Performs c r p r') (hset : Carries p .setslew)
    (hrate : 0 < p.rate) : r' = r.enterSlewing p.rate (clockPort c.clkW p.msNow) (clockPort c.clkW p.usNow) := by
  cases h with
  | enterSlewing => rfl
  | enterIdle hcarries =>
    rcases hcarries with hcarries | ⟨-, hnonpos⟩
    · exact nomatch carries_unique hset hcarries
    · exact absurd hrate hnonpos.not_gt
  | updateIdle hcarries | updateSlewing hcarries | setdir _ hcarries | stop hcarries | getspeed hcarries
  | init hcarries => exact nomatch carries_unique hset hcarries

/-- The cycle start of a run from a SETSLEW with a positive rate on: the start of its schedule, caught up with. -/
theorem run_setslew_cstart {s t : State} {p : Ports} {ps : List Ports} (hp : s.pending = p :: ps)
    (hset : Carries p .setslew) (hrate : 0 < p.rate) (hkeeps : ∀ q ∈ ps, KeepsLoop q)
    (hrun : Host.Core.run core (ps.length + 1) s = .next t) :
    t.regs.cstart = catchUpAll s.cfg (updateTimes ps) (p.usNow % s.cfg.clockSpan) := by
  obtain ⟨u, hstep, hrest⟩ := run_succ_next_cases hrun
  obtain ⟨hpending, hperf⟩ := step_performs hstep hp
  have hregs := hperf.of_setslew hset hrate
  rw [run_cstart hpending (by rw [hregs, Regs.enterSlewing_active]) hkeeps hrest, step_keeps_cfg hstep, hregs]
  rfl

theorem atPoint_start (c : Config) (start : Nat) : AtPoint c start start 0 (start % c.clockSpan) := by
  simp [AtPoint]

theorem atPoint_catchUpAll {c : Config} {bound start now k : Nat} {us : List Nat} {cs : Ticks}
    (hcs : AtPoint c start now k cs) (hspaced : SpacedBy bound now us) :
    ∃ k', AtPoint c start (lastTime now us) k' (catchUpAll c us cs) := by
  induction us generalizing now k cs with
  | nil => exact ⟨k, hcs⟩
  | cons u us ih =>
    obtain ⟨hnow, -, hspaced⟩ := hspaced
    exact ih (atPoint_catchUp hcs hnow) hspaced

/-- Settles O35: the schedule starts at a point, and every catch-up goes to one. -/
theorem cycleStartsStayOnSchedulePoints : Obligations.CycleStartsStayOnSchedulePoints := by
  intro bound s t p ps _ hp hset hrate hkeeps hspaced hrun
  rw [run_setslew_cstart hp hset hrate hkeeps hrun]
  exact atPoint_catchUpAll (atPoint_start s.cfg p.usNow) hspaced

/-- Gaps that leave one period of the clock span free keep every UPDATE less than the span behind the cycle start. -/
theorem onSchedule_catchUpAll {c : Config} {start now : Nat} {us : List Nat} {cs : Ticks} (hc : c.WellFormed)
    (hcs : OnSchedule c start now cs) (hspaced : SpacedBy (c.clockSpan - c.periodUs) now us) :
    OnSchedule c start (lastTime now us) (catchUpAll c us cs) := by
  obtain ⟨-, -, -, hperiod, hfits, -⟩ := id hc
  induction us generalizing now cs with
  | nil => exact hcs
  | cons u us ih =>
    obtain ⟨hnow, hgap, hspaced⟩ := hspaced
    obtain ⟨k, hpoint, hlast⟩ := hcs
    rw [Nat.add_mul, Nat.one_mul] at hlast
    exact ih (onSchedule_catchUp hperiod hpoint hnow (by omega)) hspaced

/-- Settles O36: SETSLEW puts the cycle start on the schedule, and the UPDATEs keep it there. -/
theorem driftFreeSchedule : Obligations.DriftFreeSchedule := by
  intro s t p ps hc hp hset hrate hkeeps hspaced hrun
  obtain ⟨-, -, -, hperiod, -⟩ := id hc
  rw [run_setslew_cstart hp hset hrate hkeeps hrun]
  exact onSchedule_catchUpAll hc ⟨0, atPoint_start s.cfg p.usNow, by omega⟩ hspaced

/-! ## R78(b) as it is written -/

/-- Clocks of four bits and a period of three: a clock span of 16. -/
def aliasingConfig : Config := { clkW := 4, sampleMs := 1, periodUs := 3, kp := 0, degMin := 0, degMax := 360 }

/-- SETSLEW at time 0. -/
def aliasingStart : Ports := { quietPorts with cmd := encode .setslew, rate := 1 }

/-- UPDATE at time `u`. -/
def updateAt (u : Nat) : Ports := { quietPorts with cmd := encode .update, usNow := u }

theorem updateAt_keepsLoop (u : Nat) : KeepsLoop (updateAt u) :=
  ⟨.update, decode_encode .update, by decide, by decide⟩

/-- Refutes O37: SETSLEW at 0 and UPDATEs at 2 and 17 leave the cycle start at 0, since the elapsed time 17 shows as 1,
where the last point of the schedule is 15. -/
theorem not_driftFreeUnderClockGapsAlone : ¬Obligations.DriftFreeUnderClockGapsAlone := by
  intro h
  let s : State := { State.resetUnder aliasingConfig with pending := [aliasingStart, updateAt 2, updateAt 17] }
  have hset : Carries aliasingStart .setslew := decode_encode .setslew
  have hrate : 0 < aliasingStart.rate := zero_lt_one
  have hkeeps : ∀ q ∈ [updateAt 2, updateAt 17], KeepsLoop q := by simp [updateAt_keepsLoop]
  have hspaced : SpacedBy (aliasingConfig.clockSpan - 1) 0 (updateTimes [updateAt 2, updateAt 17]) :=
    ⟨by decide, by decide, by decide, by decide, trivial⟩
  obtain ⟨t, hrun⟩ : ∃ t, Host.Core.run core 3 s = .next t := ⟨_, rfl⟩
  have hcstart : t.regs.cstart = 0 := (run_setslew_cstart (s := s) rfl hset hrate hkeeps hrun).trans (by decide)
  obtain ⟨k, ⟨hpoint, hle⟩, hlast⟩ := h s t _ _ (by decide) rfl hset hrate hkeeps hspaced hrun
  rw [hcstart] at hpoint
  change 0 = (0 + k * 3) % 16 at hpoint
  change 0 + k * 3 ≤ 17 at hle
  change 17 < 0 + (k + 1) * 3 at hlast
  omega

end Sys2Proof.Machine

/-! SUPPORT. The first UPDATE behind a SETSLEW (rules R65 and R111): what stands between the two leaves the loop alone. -/

namespace Sys2Proof.Machine

open Sys2Proof.Safety

/-- A command that leaves the loop alone writes output registers at most. -/
theorem Performs.sameLoop {c : Config} {r r' : Regs} {p : Ports} (h : Performs c r p r') (halone : LeavesLoopAlone p) :
    SameLoop r r' := by
  obtain ⟨i, hi, hset, hclr, hupdate⟩ := halone
  rcases h.loop_cases with hsame | ⟨hcarries, -⟩ | ⟨hcarries, -⟩ | ⟨hcarries | ⟨hcarries, -⟩, -⟩
  · exact hsame
  · exact absurd (carries_unique hi hcarries) hupdate
  · exact absurd (carries_unique hi hcarries) hset
  · exact absurd (carries_unique hi hcarries) hclr
  · exact absurd (carries_unique hi hcarries) hset

/-- Commands that leave the loop alone are performed, and what stands behind them runs from where they lead. -/
theorem run_leavesLoopAlone {s : State} {mid qs : List Ports} (hc : s.cfg.WellFormed) (hp : s.pending = mid ++ qs)
    (halone : ∀ m ∈ mid, LeavesLoopAlone m) :
    ∃ t, (∀ n, Host.Core.run core (mid.length + n) s = Host.Core.run core n t) ∧ t.pending = qs ∧ t.cfg = s.cfg ∧
      SameLoop s.regs t.regs := by
  induction mid generalizing s with
  | nil => exact ⟨s, fun n => by rw [List.length_nil, Nat.zero_add], hp, rfl, .refl _⟩
  | cons m mid ih =>
    obtain ⟨hm, hmid⟩ := List.forall_mem_cons.mp halone
    have hlegal : Legal m := by
      obtain ⟨i, hi, -⟩ := hm
      exact ⟨i, hi⟩
    obtain ⟨u, hstep, hpending, -, hcfg, -⟩ := step_of_legal hc hp hlegal
    obtain ⟨-, hperf⟩ := step_performs hstep hp
    obtain ⟨t, hrun, htpending, htcfg, hloop⟩ := ih (hcfg ▸ hc) hpending hmid
    refine ⟨t, fun n => ?_, htpending, htcfg.trans hcfg, (hperf.sameLoop hm).trans hloop⟩
    rw [List.length_cons, Nat.add_right_comm, run_succ_of_next _ hstep, hrun]

/-- UPDATE in Slewing without a baseline takes one (rule R65). -/
theorem Performs.of_baseline {c : Config} {r r' : Regs} {p : Ports} (h : Performs c r p r') (hupdate : Carries p .update)
    (ha : r.active = true) (hb : r.base = false) :
    r' = (r.takeBaseline p.pos (clockPort c.clkW p.msNow)).pwm c (clockPort c.clkW p.usNow) := by
  cases h with
  | updateIdle _ hidle => simp [ha] at hidle
  | updateSlewing => rw [Regs.sample_of_baseline p.pos (Regs.sampling_baseline c _ ha hb)]
  | enterIdle hcarries =>
    rcases hcarries with hcarries | ⟨hcarries, -⟩
    · exact nomatch carries_unique hupdate hcarries
    · exact nomatch carries_unique hupdate hcarries
  | enterSlewing hcarries | setdir _ hcarries | stop hcarries | getspeed hcarries | init hcarries =>
    exact nomatch carries_unique hupdate hcarries

/-- Settles O45: SETSLEW clears BASE, nothing sets it before the UPDATE, and that one takes the baseline. -/
theorem coldStartKeepsDuty : Obligations.ColdStartKeepsDuty := by
  intro s p q mid rest hc hp hset hrate halone hupdate
  rw [List.cons_append] at hp
  obtain ⟨s₁, hstep₁, hp₁, -, hcfg₁, -⟩ := step_of_legal hc hp ⟨_, hset⟩
  have hregs₁ := (step_performs hstep₁ hp).2.of_setslew hset hrate
  obtain ⟨s₂, hrun₂, hp₂, hcfg₂, en, pa, pb, hregs₂⟩ := run_leavesLoopAlone (hcfg₁ ▸ hc) hp₁ halone
  have hcfg : s₂.cfg = s.cfg := hcfg₂.trans hcfg₁
  obtain ⟨t, hstep, hpending, -⟩ := step_of_legal (hcfg ▸ hc) hp₂ ⟨_, hupdate⟩
  have hregs := (step_performs hstep hp₂).2.of_baseline hupdate (by simp [hregs₂, hregs₁]) (by simp [hregs₂, hregs₁])
  refine ⟨t, ?_, hpending, ?_⟩
  · rw [run_succ_of_next (mid.length + 1) hstep₁, hrun₂, run_succ_of_next 0 hstep, run_zero]
  · rw [hregs, hregs₂, hregs₁, hcfg]
    exact ⟨rfl, rfl, rfl, rfl, rfl, rfl, rfl⟩

end Sys2Proof.Machine

/-! SUPPORT. The registers that reset leaves to the spec's decision D18 (rule R35): two runs that differ in them show the
host the same. -/

namespace Sys2Proof.Machine

open Sys2Proof.Safety

/-- Two register sets that no later command can tell apart at the outputs: in Idle the four hidden registers are free, and
in Slewing without a baseline LPOS is. -/
inductive Alike : Regs → Regs → Prop where
  | same (r : Regs) : Alike r r
  | idle {r : Regs} (lpos : Int) (ltime : Ticks) (base : Bit) (cstart : Ticks) (hidle : r.active = false) :
      Alike r { r with lpos := lpos, ltime := ltime, base := base, cstart := cstart }
  | awaiting {r : Regs} (lpos : Int) (hslewing : r.active = true) (hbase : r.base = false) :
      Alike r { r with lpos := lpos }

/-- The registers that `Alike` never leaves free: those the host sees, and the state of the loop. -/
theorem Alike.visible {r r' : Regs} (h : Alike r r') :
    r'.active = r.active ∧ r'.des = r.des ∧ r'.duty = r.duty ∧ r'.spd = r.spd ∧ r'.en = r.en ∧ r'.pa = r.pa ∧
      r'.pb = r.pb := by
  cases h <;> exact ⟨rfl, rfl, rfl, rfl, rfl, rfl, rfl⟩

section Writes

variable {r r' : Regs} (h : Alike r r')
include h

theorem Alike.driveDirection (d : Direction) : Alike (r.driveDirection d) (r'.driveDirection d) := by
  cases h with
  | same => exact .same _
  | idle lpos ltime base cstart hidle => exact .idle (r := r.driveDirection d) lpos ltime base cstart hidle
  | awaiting lpos hslewing hbase => exact .awaiting (r := r.driveDirection d) lpos hslewing hbase

theorem Alike.driveEnable (b : Bit) : Alike (r.driveEnable b) (r'.driveEnable b) := by
  cases h with
  | same => exact .same _
  | idle lpos ltime base cstart hidle => exact .idle (r := r.driveEnable b) lpos ltime base cstart hidle
  | awaiting lpos hslewing hbase => exact .awaiting (r := r.driveEnable b) lpos hslewing hbase

/-- CLRSLEW writes none of the four. -/
theorem Alike.enterIdle : Alike r.enterIdle r'.enterIdle := by
  cases h with
  | same => exact .same _
  | idle lpos ltime base cstart => exact .idle (r := r.enterIdle) lpos ltime base cstart rfl
  | awaiting lpos => exact .idle (r := r.enterIdle) lpos r.ltime r.base r.cstart rfl

/-- SETSLEW writes all of the four but LPOS, and clears BASE. -/
theorem Alike.enterSlewing (rate : Rat) (ms us : Ticks) :
    Alike (r.enterSlewing rate ms us) (r'.enterSlewing rate ms us) := by
  cases h with
  | same => exact .same _
  | idle lpos => exact .awaiting (r := r.enterSlewing rate ms us) lpos rfl rfl
  | awaiting lpos => exact .awaiting (r := r.enterSlewing rate ms us) lpos rfl rfl

theorem Alike.setslew (rate : Rat) (ms us : Ticks) : Alike (r.setslew rate ms us) (r'.setslew rate ms us) := by
  rcases lt_or_ge 0 rate with hrate | hrate
  · rw [Regs.setslew_of_pos _ _ _ hrate, Regs.setslew_of_pos _ _ _ hrate]
    exact h.enterSlewing rate ms us
  · rw [Regs.setslew_of_nonpos _ _ _ hrate, Regs.setslew_of_nonpos _ _ _ hrate]
    exact h.enterIdle

/-- UPDATE looks at none of the four in Idle, and writes LPOS without a look at it in a baseline sample. -/
theorem Alike.update (c : Config) (ms us : Ticks) (z : Int) : Alike (r.update c ms us z) (r'.update c ms us z) := by
  cases h with
  | same => exact .same _
  | idle lpos ltime base cstart hidle =>
    rw [Regs.update_idle c ms us z hidle, Regs.update_idle c ms us z (by exact hidle)]
    exact .idle lpos ltime base cstart hidle
  | awaiting lpos hslewing hbase =>
    rw [Regs.update_slewing c ms us z hslewing, Regs.update_slewing c ms us z (by exact hslewing),
      Regs.sample_of_baseline z (Regs.sampling_baseline c ms hslewing hbase),
      Regs.sample_of_baseline z (Regs.sampling_baseline c ms (by exact hslewing) (by exact hbase))]
    exact .same _

end Writes

/-- Two states that differ in the registers only, and there as `Alike` allows. -/
def AlikeStates (s s' : State) : Prop := ∃ r', s' = s.withRegs r' ∧ Alike s.regs r'

/-- No operation tells two such states apart. -/
theorem exec_alike {i : Instr} {s s' t : State} (h : AlikeStates s s') (hexec : exec i s = .next t) :
    ∃ t', exec i s' = .next t' ∧ AlikeStates t t' := by
  obtain ⟨r', rfl, hregs⟩ := h
  cases i with
  | update => cases hexec; exact ⟨_, rfl, _, rfl, hregs.update s.cfg s.msNow s.usNow s.pos⟩
  | setslew => cases hexec; exact ⟨_, rfl, _, rfl, hregs.setslew s.rate s.msNow s.usNow⟩
  | clrslew => cases hexec; exact ⟨_, rfl, _, rfl, hregs.enterIdle⟩
  | setdir d => cases hexec; exact ⟨_, rfl, _, rfl, hregs.driveDirection d⟩
  | stop => cases hexec; exact ⟨_, rfl, _, rfl, (hregs.driveDirection .stop).driveEnable false⟩
  | getspeed =>
    cases hexec
    obtain ⟨-, -, -, hspd, -⟩ := hregs.visible
    refine ⟨_, rfl, r', ?_, hregs⟩
    rw [State.withRegs_regs, hspd]
    rfl
  | init => cases hexec; exact ⟨_, rfl, _, rfl, (hregs.driveDirection .stop).driveEnable true⟩

theorem AlikeStates.dropRefused {s s' : State} (h : AlikeStates s s') : AlikeStates s.dropRefused s'.dropRefused := by
  obtain ⟨r', rfl, hregs⟩ := h
  exact ⟨r', rfl, hregs⟩

/-- A serving takes the same command in both states, or refuses it in both. -/
theorem AlikeStates.serve {s s' : State} (h : AlikeStates s s') : AlikeStates s.serve s'.serve := by
  obtain ⟨r', rfl, hregs⟩ := id h
  by_cases hc : s.cfg.WellFormed
  · cases hp : s.pending with
    | nil =>
      rw [State.serve_of_next (step_of_waiting hc hp), State.serve_of_next (step_of_waiting (s := s.withRegs r') hc hp)]
      exact h
    | cons p rest =>
      by_cases hlegal : Legal p
      · obtain ⟨i, hd⟩ := hlegal
        obtain ⟨t, hexec⟩ := exec_completes i (s.present p rest)
        have hpresent : AlikeStates (s.present p rest) ((s.withRegs r').present p rest) := ⟨r', rfl, hregs⟩
        obtain ⟨t', hexec', halike⟩ := exec_alike hpresent hexec
        rw [State.serve_of_next ((step_of_carries hc hp hd).trans hexec),
          State.serve_of_next ((step_of_carries (s := s.withRegs r') hc hp hd).trans hexec')]
        exact halike
      · rw [State.serve_of_illegal hc hp hlegal, State.serve_of_illegal (s := s.withRegs r') hc hp hlegal]
        exact h.dropRefused
  · rw [State.serve, State.serve, step_of_malformed hc, step_of_malformed (s := s.withRegs r') hc]
    exact h.dropRefused

theorem AlikeStates.serveMany {s s' : State} (k : Nat) (h : AlikeStates s s') :
    AlikeStates (State.serveMany k s) (State.serveMany k s') := by
  induction k generalizing s s' with
  | zero => exact h
  | succ k ih => exact ih h.serve

/-- Settles O22: reset is in Idle, where the four are free, and no serving tells the two runs apart. -/
theorem hiddenResetValuesDoNotMatter : Obligations.HiddenResetValuesDoNotMatter := by
  intro c ps k lpos ltime cstart base _
  have hreset : AlikeStates { State.resetUnder c with pending := ps }
      { State.resetUnder c with
        pending := ps
        regs := { Regs.reset with lpos := lpos, ltime := ltime, cstart := cstart, base := base } } :=
    ⟨_, rfl, .idle lpos ltime base cstart rfl⟩
  obtain ⟨r', hstate, hregs⟩ := hreset.serveMany k
  obtain ⟨hactive, hdes, hduty, hspd, hen, hpa, hpb⟩ := hregs.visible
  refine ⟨_, _, rfl, rfl, ?_⟩
  rw [hstate]
  refine ⟨?outputs, rfl, rfl, hactive, hdes, hduty⟩
  simp [State.outputs, State.speedOut, hen, hpa, hpb, hspd]

end Sys2Proof.Machine
